-- ==== Sys2Proof/Word.lean ====
section
/-! DEFINITION. The words of the machine: bus data, bytes, register contents, register and slot numbers. -/

namespace Sys2Proof

/-- One byte (20_memory.md R63). -/
abbrev Byte := BitVec 8

/-- One bus datum, one command word, one control register (10_state.md R35, 30_encoding.md R90). -/
abbrev Word := BitVec 32

/-- The data bits of one limb-vector register: LMAXBITS = 4096 bits, the largest legal capacity (10_state.md R22). -/
abbrev VData := BitVec 4096

/-- The number of a limb-vector register, `V0` to `V15` (NV = 16, 10_state.md R22). -/
abbrev VIdx := Fin 16

/-- The number of a context slot, `C0` to `C3` (NCTX = 4, 10_state.md R32). -/
abbrev CIdx := Fin 4

end Sys2Proof
end

