-- ==== Sys2Proof/Syntax.lean ====
section
/-! DEFINITION. The 22 commands (30_encoding.md R96), one constructor each, with the operands of R92. -/

namespace Sys2Proof

/-- A command. `rd`, `ra`, `rb`, `rc` are register numbers (of a point: its base register), `cx` a slot number,
`cond` the bits `fn[3:0]` of SEL and CSWAP (R93), `noinf` the bit `fn[0]` of SCMUL. -/
inductive Instr where
  | nop
  | zeroize
  | add (rd ra rb : VIdx)
  | sub (rd ra rb : VIdx)
  | cmp (ra rb : VIdx)
  | iszero (ra : VIdx)
  | sel (rd ra rb : VIdx) (cond : BitVec 4)
  | cswap (ra rb : VIdx) (cond : BitVec 4)
  | ctxload (ra : VIdx) (cx : CIdx)
  | tomont (rd ra : VIdx) (cx : CIdx)
  | montmul (rd ra rb : VIdx) (cx : CIdx)
  | montsqr (rd ra : VIdx) (cx : CIdx)
  | frommont (rd ra : VIdx) (cx : CIdx)
  | modexp (rd ra rb : VIdx) (cx : CIdx)
  | modexpb (rd ra rb rc : VIdx) (cx : CIdx)
  | crvload (ra rb rc : VIdx) (cx : CIdx)
  | ptload (rd ra rb : VIdx) (cx : CIdx)
  | ptinf (rd : VIdx) (cx : CIdx)
  | ptadd (rd ra rb : VIdx) (cx : CIdx)
  | ptdbl (rd ra : VIdx) (cx : CIdx)
  | ptaff (rd ra rb : VIdx) (cx : CIdx)
  | scmul (rd ra rb : VIdx) (cx : CIdx) (noinf : Bool)
  deriving DecidableEq, Repr

end Sys2Proof
end

