-- ==== Sys2Proof/WellFormed.lean ====
section
/-! DEFINITION. Which terms of `Instr` a command word can spell. -/

namespace Sys2Proof

/-- `fs = fn[2:0] = 7` is reserved (30_encoding.md R93, R95). -/
def condAssigned (cond : BitVec 4) : Bool := cond.extractLsb' 0 3 != 7#3

/-- The operand types hold every bound but one: the flag selector of SEL and CSWAP must be assigned (R95).
A point base above 13 is no illegal word; it is the error E_REGIDX of the running command (R94). -/
def Instr.wellFormed : Instr → Bool
  | .sel _ _ _ cond => condAssigned cond
  | .cswap _ _ cond => condAssigned cond
  | .nop => true
  | .zeroize => true
  | .add _ _ _ => true
  | .sub _ _ _ => true
  | .cmp _ _ => true
  | .iszero _ => true
  | .ctxload _ _ => true
  | .tomont _ _ _ => true
  | .montmul _ _ _ _ => true
  | .montsqr _ _ _ => true
  | .frommont _ _ _ => true
  | .modexp _ _ _ _ => true
  | .modexpb _ _ _ _ _ => true
  | .crvload _ _ _ _ => true
  | .ptload _ _ _ _ => true
  | .ptinf _ _ => true
  | .ptadd _ _ _ _ => true
  | .ptdbl _ _ _ => true
  | .ptaff _ _ _ _ => true
  | .scmul _ _ _ _ _ => true

end Sys2Proof
end

