-- ==== Sys2Proof/Decode.lean ====
section
/-! DEFINITION. The command word: its fields (30_encoding.md R91), decoding (R95, R97), encoding (R92, R96), and the
table of match and mask words (R96). -/

namespace Sys2Proof

/-- The seven fields of format F0 (R91). -/
structure Fields where
  op : BitVec 8
  rd : BitVec 4
  ra : BitVec 4
  rb : BitVec 4
  rc : BitVec 4
  cx : BitVec 2
  fn : BitVec 6
  deriving DecidableEq, Repr

/-- R95: `op = w[31:24]`, `rd = w[23:20]`, `ra = w[19:16]`, `rb = w[15:12]`, `rc = w[11:8]`, `cx = w[7:6]`, `fn = w[5:0]`. -/
def Fields.ofWord (w : Word) : Fields where
  op := w.extractLsb' 24 8
  rd := w.extractLsb' 20 4
  ra := w.extractLsb' 16 4
  rb := w.extractLsb' 12 4
  rc := w.extractLsb' 8 4
  cx := w.extractLsb' 6 2
  fn := w.extractLsb' 0 6

/-- The word with these fields, most significant first (R91). -/
def Fields.toWord (f : Fields) : Word :=
  f.op ++ f.rd ++ f.ra ++ f.rb ++ f.rc ++ f.cx ++ f.fn

/-- Why a word spells no command (R97). -/
inductive Reject where
  /-- `op` is no opcode of R96. -/
  | unassignedOp
  /-- A bit that the command does not use is not 0 (`fn[5:4]` of SEL and CSWAP, `fn[5:1]` of SCMUL among them). -/
  | unusedField
  /-- SEL or CSWAP with `fn[2:0] = 7`. -/
  | reservedSelector
  /-- Fewer than four bytes: no whole command word (R90). -/
  | truncated
  deriving DecidableEq, Repr

/-- `i` when the fields it does not use are 0 (R92). -/
def unusedZero (zero : Bool) (i : Instr) : Except Reject Instr :=
  if zero then .ok i else .error .unusedField

/-- SEL and CSWAP: unused bits 0, then the selector assigned (R93, R95). -/
def selectorOk (zero : Bool) (i : Instr) : Except Reject Instr :=
  if zero then (if i.wellFormed then .ok i else .error .reservedSelector) else .error .unusedField

/-- Decoding of the fields, opcode by opcode, with R92's table of the fields each command uses. -/
def decodeFields (f : Fields) : Except Reject Instr :=
  let d : VIdx := f.rd.toFin
  let a : VIdx := f.ra.toFin
  let b : VIdx := f.rb.toFin
  let c : VIdx := f.rc.toFin
  let k : CIdx := f.cx.toFin
  let d0 := f.rd == 0
  let a0 := f.ra == 0
  let b0 := f.rb == 0
  let c0 := f.rc == 0
  let k0 := f.cx == 0
  let n0 := f.fn == 0
  match f.op.toNat with
  | 0x01 => unusedZero (d0 && a0 && b0 && c0 && k0 && n0) .nop
  | 0x0F => unusedZero (d0 && a0 && b0 && c0 && k0 && n0) .zeroize
  | 0x10 => unusedZero (c0 && k0 && n0) (.add d a b)
  | 0x11 => unusedZero (c0 && k0 && n0) (.sub d a b)
  | 0x12 => unusedZero (d0 && c0 && k0 && n0) (.cmp a b)
  | 0x13 => unusedZero (d0 && b0 && c0 && k0 && n0) (.iszero a)
  | 0x20 => selectorOk (c0 && k0 && f.fn.extractLsb' 4 2 == 0) (.sel d a b (f.fn.extractLsb' 0 4))
  | 0x21 => selectorOk (d0 && c0 && k0 && f.fn.extractLsb' 4 2 == 0) (.cswap a b (f.fn.extractLsb' 0 4))
  | 0x30 => unusedZero (d0 && b0 && c0 && n0) (.ctxload a k)
  | 0x31 => unusedZero (b0 && c0 && n0) (.tomont d a k)
  | 0x32 => unusedZero (c0 && n0) (.montmul d a b k)
  | 0x33 => unusedZero (b0 && c0 && n0) (.montsqr d a k)
  | 0x34 => unusedZero (b0 && c0 && n0) (.frommont d a k)
  | 0x40 => unusedZero (c0 && n0) (.modexp d a b k)
  | 0x41 => unusedZero n0 (.modexpb d a b c k)
  | 0x50 => unusedZero (d0 && n0) (.crvload a b c k)
  | 0x51 => unusedZero (c0 && n0) (.ptload d a b k)
  | 0x52 => unusedZero (a0 && b0 && c0 && n0) (.ptinf d k)
  | 0x53 => unusedZero (c0 && n0) (.ptadd d a b k)
  | 0x54 => unusedZero (b0 && c0 && n0) (.ptdbl d a k)
  | 0x55 => unusedZero (c0 && n0) (.ptaff d a b k)
  | 0x60 => unusedZero (c0 && f.fn.extractLsb' 1 5 == 0) (.scmul d a b k (f.fn.getLsbD 0))
  | _ => .error .unassignedOp

/-- The command a word spells, or why it spells none (R95, R97). Total. -/
def decode (w : Word) : Except Reject Instr := decodeFields (Fields.ofWord w)

/-- The word of four bytes, the lowest address first: little-endian (20_memory.md R63). -/
def wordOfBytes (b0 b1 b2 b3 : Byte) : Word := b3 ++ b2 ++ b1 ++ b0

/-- Decoding of a byte string, with the bytes that are left. Total on any bytes. -/
def decodeBytes : List Byte → Except Reject (Instr × List Byte)
  | b0 :: b1 :: b2 :: b3 :: rest =>
    match decode (wordOfBytes b0 b1 b2 b3) with
    | .ok i => .ok (i, rest)
    | .error r => .error r
  | _ => .error .truncated

/-- The fields of a command (R92, R96). -/
def encodeFields : Instr → Fields
  | .nop => ⟨0x01, 0, 0, 0, 0, 0, 0⟩
  | .zeroize => ⟨0x0F, 0, 0, 0, 0, 0, 0⟩
  | .add d a b => ⟨0x10, .ofFin d, .ofFin a, .ofFin b, 0, 0, 0⟩
  | .sub d a b => ⟨0x11, .ofFin d, .ofFin a, .ofFin b, 0, 0, 0⟩
  | .cmp a b => ⟨0x12, 0, .ofFin a, .ofFin b, 0, 0, 0⟩
  | .iszero a => ⟨0x13, 0, .ofFin a, 0, 0, 0, 0⟩
  | .sel d a b n => ⟨0x20, .ofFin d, .ofFin a, .ofFin b, 0, 0, 0#2 ++ n⟩
  | .cswap a b n => ⟨0x21, 0, .ofFin a, .ofFin b, 0, 0, 0#2 ++ n⟩
  | .ctxload a k => ⟨0x30, 0, .ofFin a, 0, 0, .ofFin k, 0⟩
  | .tomont d a k => ⟨0x31, .ofFin d, .ofFin a, 0, 0, .ofFin k, 0⟩
  | .montmul d a b k => ⟨0x32, .ofFin d, .ofFin a, .ofFin b, 0, .ofFin k, 0⟩
  | .montsqr d a k => ⟨0x33, .ofFin d, .ofFin a, 0, 0, .ofFin k, 0⟩
  | .frommont d a k => ⟨0x34, .ofFin d, .ofFin a, 0, 0, .ofFin k, 0⟩
  | .modexp d a b k => ⟨0x40, .ofFin d, .ofFin a, .ofFin b, 0, .ofFin k, 0⟩
  | .modexpb d a b c k => ⟨0x41, .ofFin d, .ofFin a, .ofFin b, .ofFin c, .ofFin k, 0⟩
  | .crvload a b c k => ⟨0x50, 0, .ofFin a, .ofFin b, .ofFin c, .ofFin k, 0⟩
  | .ptload d a b k => ⟨0x51, .ofFin d, .ofFin a, .ofFin b, 0, .ofFin k, 0⟩
  | .ptinf d k => ⟨0x52, .ofFin d, 0, 0, 0, .ofFin k, 0⟩
  | .ptadd d a b k => ⟨0x53, .ofFin d, .ofFin a, .ofFin b, 0, .ofFin k, 0⟩
  | .ptdbl d a k => ⟨0x54, .ofFin d, .ofFin a, 0, 0, .ofFin k, 0⟩
  | .ptaff d a b k => ⟨0x55, .ofFin d, .ofFin a, .ofFin b, 0, .ofFin k, 0⟩
  | .scmul d a b k noinf => ⟨0x60, .ofFin d, .ofFin a, .ofFin b, 0, .ofFin k, 0#5 ++ BitVec.ofBool noinf⟩

/-- The word of a command (R91, R96). -/
def encode (i : Instr) : Word := (encodeFields i).toWord

/-- The four bytes of a word, the lowest address first (20_memory.md R63). -/
def bytesOfWord (w : Word) : List Byte :=
  [w.extractLsb' 0 8, w.extractLsb' 8 8, w.extractLsb' 16 8, w.extractLsb' 24 8]

/-- The instruction this decoder reads from a row of spec/opcode_table.json: the row's bits as one 32-bit word laid
out little-endian. -/
def decodeTableWord (nbits w : Nat) : Option Instr :=
  match decodeBytes (bytesOfWord (BitVec.ofNat 32 (w % 2 ^ nbits))) with
  | .ok (i, _) => some i
  | .error _ => none

/-- One row of R96: the command's name, `match` and `mask`. -/
structure OpcodeRow where
  mnemonic : String
  pattern : Word
  mask : Word
  deriving DecidableEq, Repr

/-- The opcode map of R96, row by row as it stands there. -/
def opcodeTable : List OpcodeRow :=
  [⟨"NOP", 0x01000000, 0xFFFFFFFF⟩, ⟨"ZEROIZE", 0x0F000000, 0xFFFFFFFF⟩,
   ⟨"ADD", 0x10000000, 0xFF000FFF⟩, ⟨"SUB", 0x11000000, 0xFF000FFF⟩,
   ⟨"CMP", 0x12000000, 0xFFF00FFF⟩, ⟨"ISZERO", 0x13000000, 0xFFF0FFFF⟩] ++
  [⟨"SEL", 0x20000000, 0xFF000FF0⟩, ⟨"CSWAP", 0x21000000, 0xFFF00FF0⟩,
   ⟨"CTXLOAD", 0x30000000, 0xFFF0FF3F⟩, ⟨"TOMONT", 0x31000000, 0xFF00FF3F⟩,
   ⟨"MONTMUL", 0x32000000, 0xFF000F3F⟩, ⟨"MONTSQR", 0x33000000, 0xFF00FF3F⟩,
   ⟨"FROMMONT", 0x34000000, 0xFF00FF3F⟩] ++
  [⟨"MODEXP", 0x40000000, 0xFF000F3F⟩, ⟨"MODEXPB", 0x41000000, 0xFF00003F⟩,
   ⟨"CRVLOAD", 0x50000000, 0xFFF0003F⟩, ⟨"PTLOAD", 0x51000000, 0xFF000F3F⟩,
   ⟨"PTINF", 0x52000000, 0xFF0FFF3F⟩, ⟨"PTADD", 0x53000000, 0xFF000F3F⟩,
   ⟨"PTDBL", 0x54000000, 0xFF00FF3F⟩, ⟨"PTAFF", 0x55000000, 0xFF000F3F⟩,
   ⟨"SCMUL", 0x60000000, 0xFF000F3E⟩]

/-- `w` matches the row: `(w & mask) = match` (R95). -/
def OpcodeRow.matches (r : OpcodeRow) (w : Word) : Bool := (w &&& r.mask) == r.pattern

/-- The name of a command in R96. -/
def mnemonicOf : Instr → String
  | .nop => "NOP"
  | .zeroize => "ZEROIZE"
  | .add _ _ _ => "ADD"
  | .sub _ _ _ => "SUB"
  | .cmp _ _ => "CMP"
  | .iszero _ => "ISZERO"
  | .sel _ _ _ _ => "SEL"
  | .cswap _ _ _ => "CSWAP"
  | .ctxload _ _ => "CTXLOAD"
  | .tomont _ _ _ => "TOMONT"
  | .montmul _ _ _ _ => "MONTMUL"
  | .montsqr _ _ _ => "MONTSQR"
  | .frommont _ _ _ => "FROMMONT"
  | .modexp _ _ _ _ => "MODEXP"
  | .modexpb _ _ _ _ _ => "MODEXPB"
  | .crvload _ _ _ _ => "CRVLOAD"
  | .ptload _ _ _ _ => "PTLOAD"
  | .ptinf _ _ => "PTINF"
  | .ptadd _ _ _ _ => "PTADD"
  | .ptdbl _ _ _ => "PTDBL"
  | .ptaff _ _ _ _ => "PTAFF"
  | .scmul _ _ _ _ _ => "SCMUL"

end Sys2Proof
end

