-- ==== Sys2Proof/Machine/Limbs.lean ====
section
/-! DEFINITION. Limb vectors (00_scope.md R12) and the functions of the adder and the select: ADD_n, SUB_n, ISZERO_n, CMP_n
(40_limb_adder_subtractor.md R122 to R125), SELECT_n, CSWAP_n (41_conditional_select.md R141, R145). Every function is
written for every limb width `w`, limb by limb as the spec writes it; two vectors of one call have one length. -/

namespace Sys2Proof.Machine

/-- A limb vector, least significant limb first (R12). -/
abbrev Limbs (w : Nat) := List (BitVec w)

/-- `val(a)`: the sum of `a[i] * 2^(w*i)` (R12). -/
def val {w : Nat} : Limbs w → Nat
  | [] => 0
  | a :: as => a.toNat + 2 ^ w * val as

/-- `limbs_n(v)`: the limb vector of length `n` with value `v mod 2^(w*n)` (R12). -/
def limbsOf (w : Nat) : Nat → Nat → Limbs w
  | 0, _ => []
  | n + 1, v => BitVec.ofNat w v :: limbsOf w n (v >>> w)

/-- The loop of `ADD_n` with incoming carry `c` (R122). -/
def addLoop {w : Nat} : Limbs w → Limbs w → Bool → Limbs w × Bool
  | a :: as, b :: bs, c =>
    let s := a + b
    let c1 := s.ult a
    let s2 := s + (BitVec.ofBool c).setWidth w
    let c2 := s2.ult s
    let r := addLoop as bs (c1 || c2)
    (s2 :: r.1, r.2)
  | _, _, c => ([], c)

/-- `ADD_n(a, b) -> (sum, carry)` (R122). -/
def addN {w : Nat} (a b : Limbs w) : Limbs w × Bool := addLoop a b false

/-- The loop of `SUB_n` with running borrow `k` (R123). -/
def subLoop {w : Nat} : Limbs w → Limbs w → Bool → Limbs w × Bool
  | a :: as, b :: bs, k =>
    let d := a - b
    let b1 := a.ult b
    let k' := (BitVec.ofBool k).setWidth w
    let d2 := d - k'
    let b2 := d.ult k'
    let r := subLoop as bs (b1 || b2)
    (d2 :: r.1, r.2)
  | _, _, k => ([], k)

/-- `SUB_n(a, b) -> (diff, borrow)` (R123). -/
def subN {w : Nat} (a b : Limbs w) : Limbs w × Bool := subLoop a b false

/-- The or of all limbs onto `acc` (R124). -/
def orLimbs {w : Nat} : Limbs w → BitVec w → BitVec w
  | [], acc => acc
  | a :: as, acc => orLimbs as (acc ||| a)

/-- `ISZERO_n(a)`: every limb is accumulated before the bit is resolved (R124). -/
def isZeroN {w : Nat} (a : Limbs w) : Bool :=
  let acc := orLimbs a 0
  !(acc ||| (0 - acc)).getLsbD (w - 1)

/-- The one-hot result of a comparison (R125). -/
structure Cmp where
  lt : Bool
  eq : Bool
  gt : Bool
  deriving DecidableEq, Repr

/-- `CMP_n(a, b) -> (lt, eq, gt)` (R125). -/
def cmpN {w : Nat} (a b : Limbs w) : Cmp :=
  let d := subN a b
  let z := isZeroN d.1
  { lt := d.2, eq := z, gt := !d.2 && !z }

/-- All ones for a set flag, all zeros for a clear one: `(0 - flag) mod 2^W` (R141). -/
def maskOf (w : Nat) (flag : Bool) : BitVec w := 0 - (BitVec.ofBool flag).setWidth w

/-- `SELECT_n(flag, a, b)`: `a` for a set flag (R141). -/
def selectN {w : Nat} (flag : Bool) (a b : Limbs w) : Limbs w :=
  List.zipWith (fun x y => (x &&& maskOf w flag) ||| (y &&& ~~~ maskOf w flag)) a b

/-- `CSWAP_n(flag, a, b) -> (x, y)`: exchanged for a set flag (R145). -/
def cswapN {w : Nat} (flag : Bool) (a b : Limbs w) : Limbs w × Limbs w :=
  (List.zipWith (fun x y => x ^^^ ((x ^^^ y) &&& maskOf w flag)) a b,
   List.zipWith (fun x y => y ^^^ ((x ^^^ y) &&& maskOf w flag)) a b)

end Sys2Proof.Machine
end

