-- ==== Sys2Proof/Config.lean ====
section
/-! DEFINITION. What an implementation or the platform fixes (00_scope.md R8, 20_memory.md R60) and the one free value of the spec, the answer of the randomness port. -/

namespace Sys2Proof

/-- The configuration of 00_scope.md R8, and the base address of 20_memory.md R60. NV = 16 and NCTX = 4 are fixed by the width of the command's fields.
A legal configuration meets `LegalParams` (Sys2Proof/Safety.lean). -/
structure Params where
  /-- `W`, the limb width in bits: 32 or 64. -/
  w : Nat
  /-- `LMAXBITS`, the capacity of one register in bits: a multiple of 64, 64 to 4096. -/
  lmaxBits : Nat
  /-- `WIN`, the exponent window in bits: 1 to 5. -/
  win : Nat
  /-- `BLIND_BITS`, the size of the blinding multiplier: a multiple of 8, 8 to 256. -/
  blindBits : Nat
  /-- `BASE`, the address of the register window on the host's bus: a multiple of 0x4000 that the platform chooses. -/
  base : Nat
  deriving DecidableEq, Repr

/-- The defaults of 00_scope.md R8. The spec gives `BASE` no value; 0 is a DESIGN CHOICE (log 7). -/
def Params.default : Params := { w := 32, lmaxBits := 4096, win := 4, blindBits := 64, base := 0 }

/-- One answer of the randomness port (60_exceptions.md R262). Only the first `BLIND_BITS / 8` bytes of `ok` are the
response; a list that is shorter stands for the same bytes followed by zeros (DESIGN CHOICE, log 3). -/
inductive RngAnswer where
  /-- `RNG_OK(byte[0 .. nbytes-1])`, `byte[0]` first. -/
  | ok (bytes : List Byte)
  /-- `RNG_FAIL`. -/
  | fail
  /-- No response within RNG_TIMEOUT steps; the block behaves as if `RNG_FAIL` had come. -/
  | silent
  deriving DecidableEq, Repr, Inhabited

/-- FREE VALUE. The answer of the randomness port to its `n`-th request where the state scripts none
(93_implementation_defined.md S8: any value). It has no body, so nothing can be proved of it (log 3). -/
opaque Config.rngAnswer : Nat → RngAnswer

end Sys2Proof
end

