-- ==== Sys2Proof/Machine/State.lean ====
section
/-! DEFINITION. The machine's state (10_state.md R21) as plain data, what can stop a step, and the state after reset (R50). -/

namespace Sys2Proof.Machine

/-- The five values of a register's FORM (10_state.md R23). -/
inductive Form where
  | std
  | mont
  | px
  | py
  | pz
  deriving DecidableEq, Repr

/-- A limb-vector register: tag and data (10_state.md R22, R23). -/
structure VReg where
  valid : Bool
  len : Nat
  form : Form
  ctx : CIdx
  data : VData
  deriving DecidableEq, Repr

/-- A cleared register (10_state.md R26). -/
def VReg.cleared : VReg := { valid := false, len := 0, form := .std, ctx := 0, data := 0 }

/-- A context slot with its curve extension (10_state.md R32, R34). -/
structure Slot where
  cvalid : Bool
  clen : Nat
  m : VData
  one : VData
  rr : VData
  n0 : BitVec 64
  kvalid : Bool
  a : VData
  b : VData
  b3 : VData
  ord : VData
  ordlen : Nat
  deriving DecidableEq, Repr

/-- A slot with every field 0 (10_state.md R33, R50). -/
def Slot.empty : Slot :=
  { cvalid := false, clen := 0, m := 0, one := 0, rr := 0, n0 := 0,
    kvalid := false, a := 0, b := 0, b3 := 0, ord := 0, ordlen := 0 }

/-- The six result flags, bit 0 first (10_state.md R31). -/
structure Flags where
  c : Bool
  z : Bool
  lt : Bool
  eq : Bool
  gt : Bool
  inf : Bool
  deriving DecidableEq, Repr

/-- All flags 0. -/
def Flags.clear : Flags := { c := false, z := false, lt := false, eq := false, gt := false, inf := false }

/-- The interrupt enables, bit 0 first (10_state.md R44). -/
structure Inten where
  doneIe : Bool
  errIe : Bool
  deriving DecidableEq, Repr

/-- The twelve error codes; no other code exists (60_exceptions.md R241). -/
inductive ErrCode where
  | eIllegal
  | eRegidx
  | eCtx
  | eInvalidReg
  | eForm
  | eLen
  | eModEven
  | eAlias
  | eRange
  | eNotOnCurve
  | ePointInf
  | eRng
  deriving DecidableEq, Repr

/-- One event of an operation trace, its argument a limb count (70_reset_and_hazards.md R288). -/
inductive TraceEvent where
  | ladd (n : Nat)
  | lsub (n : Nat)
  | lcmp (n : Nat)
  | lzero (n : Nat)
  | lsel (n : Nat)
  | lswap (n : Nat)
  | mmul (n : Nat)
  | mdbl (n : Nat)
  | n0 (n : Nat)
  | rng (bytes : Nat)
  | muladd (l k : Nat)
  | padd (n : Nat)
  deriving DecidableEq, Repr

/-- One host access: where, and its width in bytes (00_scope.md R13, 20_memory.md R64). In an event the place is an address
on the host's bus; once it has reached the block it is a byte offset in the window (20_memory.md R60). -/
inductive Access where
  | read (place bytes : Nat)
  | write (place bytes : Nat) (d : Word)
  deriving DecidableEq, Repr

/-- What the outside of the block does, in order of arrival (10_state.md R20, 20_memory.md R73). -/
inductive Event where
  /-- The host's next access, by its address on the bus. -/
  | access (a : Access)
  /-- The sequencer's turn: an accepted command completes. -/
  | sequencer
  /-- The platform asserts the reset input and releases it again (70_reset_and_hazards.md R270). DESIGN CHOICE: one event,
  so no access arrives while the input is held, for which the spec gives no answer (log 14). -/
  | hardReset
  deriving DecidableEq, Repr

/-- What the bus answers to one access (20_memory.md R66). -/
inductive BusAnswer where
  /-- A read that was taken, and its datum. -/
  | data (d : Word)
  /-- A write that was taken. -/
  | taken
  /-- The access was refused; nothing changed. -/
  | buserror
  deriving DecidableEq, Repr

/-- The state. The fields down to `inten` are the spec's (10_state.md R21); the rest are the model's own: the
configuration, the inputs still to come, the bus's answers and the trace of the last completed command. -/
structure State where
  v : Vector VReg 16
  c : Vector Slot 4
  flags : Flags
  busy : Bool
  done : Bool
  fatal : Bool
  cmd : Word
  err : Option ErrCode
  inten : Inten
  params : Params
  events : List Event
  answers : List BusAnswer
  rng : List RngAnswer
  rngCount : Nat
  trace : List TraceEvent
  deriving DecidableEq, Repr

/-- Why a step faults: never. Nothing in this hardware is undefined: "every command word, every bus access and every
operand value has exactly one stated outcome" (93_implementation_defined.md). Safe: there is no such step. -/
inductive Fault where
  deriving DecidableEq, Repr

/-- Why a step is refused. -/
inductive Refusal where
  /-- Raised by an arm of `exec` whose instruction has no meaning in the model yet; no arm raises it. Safe: the model
  stops where the hardware goes on. -/
  | notModelled (mnemonic : String)
  deriving DecidableEq, Repr

/-- The machine right after reset (10_state.md R50), in the default configuration, with no input pending. -/
def State.reset : State where
  v := Vector.replicate 16 VReg.cleared
  c := Vector.replicate 4 Slot.empty
  flags := Flags.clear
  busy := false
  done := false
  fatal := false
  cmd := 0
  err := none
  inten := { doneIe := false, errIe := false }
  params := Params.default
  events := []
  answers := []
  rng := []
  rngCount := 0
  trace := []

end Sys2Proof.Machine
end

