-- ==== Sys2Proof/Machine/Flags.lean ====
section
/-! DEFINITION. `FLAGS` (10_state.md R31): how it reads, who writes which bit, and the flag a select uses (41_conditional_select.md R142). -/

namespace Sys2Proof.Machine

/-- `FLAGS` as the host reads it, bits 31:6 zero (R31). -/
def flagsWord (f : Flags) : Word :=
  (BitVec.ofBool f.inf ++ BitVec.ofBool f.gt ++ BitVec.ofBool f.eq ++ BitVec.ofBool f.lt ++ BitVec.ofBool f.z ++
    BitVec.ofBool f.c : BitVec 6).setWidth 32

/-- `FLAGS.C <- b`: the carry of ADD, the borrow of SUB (R31). -/
def setC (s : State) (b : Bool) : State := { s with flags := { s.flags with c := b } }

/-- `FLAGS.Z <- b`: ISZERO (R31). -/
def setZ (s : State) (b : Bool) : State := { s with flags := { s.flags with z := b } }

/-- `FLAGS.LT, EQ, GT <- r`: CMP (R31). -/
def setCmp (s : State) (r : Cmp) : State :=
  { s with flags := { s.flags with lt := r.lt, eq := r.eq, gt := r.gt } }

/-- `FLAGS.INF <- b`: PTAFF (R31). -/
def setInf (s : State) (b : Bool) : State := { s with flags := { s.flags with inf := b } }

/-- `FLAGS[fs]` for `fs <= 5`, the constant 0 for 6 (41_conditional_select.md R142); 7 is illegal and never used. -/
def flagAt (f : Flags) (fs : BitVec 3) : Bool :=
  match fs.toNat with
  | 0 => f.c
  | 1 => f.z
  | 2 => f.lt
  | 3 => f.eq
  | 4 => f.gt
  | 5 => f.inf
  | _ => false

/-- `FLAGVAL(fn)` on `fn[3:0]`: the selected flag, inverted where `fn[3]` is set (41_conditional_select.md R142). -/
def flagVal (f : Flags) (cond : BitVec 4) : Bool := (flagAt f (cond.extractLsb' 0 3)) ^^ cond.getLsbD 3

end Sys2Proof.Machine
end

