-- ==== Sys2Proof/Machine/Trace.lean ====
section
/-! DEFINITION. Computations that record their unit operations (70_reset_and_hazards.md R288), and the unit operations of
the adder and the select, each emitting its event. -/

namespace Sys2Proof.Machine

/-- A value and the unit operations performed to get it, in order (R288). -/
structure Traced (α : Type) where
  val : α
  trace : List TraceEvent
  deriving DecidableEq, Repr

/-- A value that costs nothing. -/
def Traced.pure {α : Type} (x : α) : Traced α := ⟨x, []⟩

/-- First `x`, then what `f` does with its value. -/
def Traced.bind {α β : Type} (x : Traced α) (f : α → Traced β) : Traced β :=
  ⟨(f x.val).val, x.trace ++ (f x.val).trace⟩

/-- The value of `x`, its unit operations recorded as `tr`: a whole sequence that R288 counts as one event. -/
def Traced.recordAs {α : Type} (x : Traced α) (tr : List TraceEvent) : Traced α := ⟨x.val, tr⟩

/-- `ADD_n` and its event. -/
def addT {w : Nat} (a b : Limbs w) : Traced (Limbs w × Bool) := ⟨addN a b, [.ladd a.length]⟩

/-- `SUB_n` and its event. -/
def subT {w : Nat} (a b : Limbs w) : Traced (Limbs w × Bool) := ⟨subN a b, [.lsub a.length]⟩

/-- `CMP_n` and its event. -/
def cmpT {w : Nat} (a b : Limbs w) : Traced Cmp := ⟨cmpN a b, [.lcmp a.length]⟩

/-- `ISZERO_n` and its event. -/
def isZeroT {w : Nat} (a : Limbs w) : Traced Bool := ⟨isZeroN a, [.lzero a.length]⟩

/-- `SELECT_n` and its event. -/
def selectT {w : Nat} (flag : Bool) (a b : Limbs w) : Traced (Limbs w) := ⟨selectN flag a b, [.lsel a.length]⟩

/-- `CSWAP_n` and its event. -/
def cswapT {w : Nat} (flag : Bool) (a b : Limbs w) : Traced (Limbs w × Limbs w) :=
  ⟨cswapN flag a b, [.lswap a.length]⟩

end Sys2Proof.Machine
end

