-- ==== Sys2Proof/Machine/Montgomery.lean ====
section
/-! DEFINITION. The functions of the Montgomery multiplier: N0INV, MONTMUL, MKCTX, TOMONT, FROMMONT
(42_montgomery_multiplier.md R152, R153, R155, R156) and field addition and subtraction (45_ec_point_adder.md R202). -/

namespace Sys2Proof.Machine

/-- A modulus context as limb vectors, with the curve constants of the slot (10_state.md R32, R34). -/
structure Ctx (w : Nat) where
  m : Limbs w
  one : Limbs w
  rr : Limbs w
  n0 : BitVec w
  a : Limbs w
  b : Limbs w
  b3 : Limbs w
  deriving DecidableEq, Repr

/-- `ceil(log2(n))` for `n >= 1`. -/
def ceilLog2 (n : Nat) : Nat := if n ≤ 1 then 0 else Nat.log2 (n - 1) + 1

/-- The loop of `N0INV`, with the number of rounds left (R152). -/
def n0Loop {w : Nat} (m0 : BitVec w) : Nat → BitVec w → BitVec w
  | 0, inv => inv
  | k + 1, inv => n0Loop m0 k (inv * (2 - m0 * inv))

/-- `N0INV(m0)`: `-(m0^-1) mod 2^W` for odd `m0`, in a fixed number of rounds (R152). -/
def n0inv {w : Nat} (m0 : BitVec w) : BitVec w := 0 - n0Loop m0 (ceilLog2 w) 1

/-- One multiply-accumulate row, `t + x * y + c` limb by limb with exact intermediate sums (R153); the carry out is one
limb because each sum is at most `2^(2W) - 1`. -/
def macRow {w : Nat} (y : BitVec w) : Limbs w → Limbs w → BitVec w → Limbs w × BitVec w
  | t :: ts, x :: xs, c =>
    let cs := t.toNat + x.toNat * y.toNat + c.toNat
    let r := macRow y ts xs (BitVec.ofNat w (cs >>> w))
    (BitVec.ofNat w cs :: r.1, r.2)
  | _, _, c => ([], c)

/-- The accumulator of MONTMUL between two outer steps: `t[0 .. n-1]` and `t[n]` (R153). -/
structure MontAcc (w : Nat) where
  lo : Limbs w
  hi : BitVec w
  deriving DecidableEq, Repr

/-- One outer step of R153 for the limb `bi`: the multiply pass, then the reduce pass, whose low limb is 0 and is
dropped (the shift by one limb). -/
def montStep {w : Nat} (m : Limbs w) (n0 : BitVec w) (a : Limbs w) (t : MontAcc w) (bi : BitVec w) : MontAcc w :=
  let mul := macRow bi t.lo a 0
  let cs := t.hi.toNat + mul.2.toNat
  let tn := BitVec.ofNat w cs
  let tn1 := BitVec.ofNat w (cs >>> w)
  let q := mul.1.headD 0 * n0
  let red := macRow q mul.1 m 0
  let cs' := tn.toNat + red.2.toNat
  { lo := red.1.tail ++ [BitVec.ofNat w cs'], hi := tn1 + BitVec.ofNat w (cs' >>> w) }

/-- The outer loop of R153 over the limbs of `b`. -/
def montLoop {w : Nat} (m : Limbs w) (n0 : BitVec w) (a : Limbs w) : Limbs w → MontAcc w → MontAcc w
  | [], t => t
  | bi :: bs, t => montLoop m n0 a bs (montStep m n0 a t bi)

/-- `MONTMUL(a, b, ctx)`: word-by-word interleaved reduction, then one conditional subtraction by mask (R153). -/
def montmul {w : Nat} (m : Limbs w) (n0 : BitVec w) (a b : Limbs w) : Limbs w :=
  let t := montLoop m n0 a b { lo := List.replicate m.length 0, hi := 0 }
  let d := subN t.lo m
  let ge := t.hi.getLsbD 0 || !d.2
  selectN ge d.1 t.lo

/-- `MONTMUL` in a context, and its event. -/
def mmT {w : Nat} (k : Ctx w) (a b : Limbs w) : Traced (Limbs w) := ⟨montmul k.m k.n0 a b, [.mmul k.m.length]⟩

/-- `TOMONT(a, ctx) = MONTMUL(a, RR)` (R156). -/
def tomontT {w : Nat} (k : Ctx w) (a : Limbs w) : Traced (Limbs w) := mmT k a k.rr

/-- `FROMMONT(a, ctx) = MONTMUL(a, 1)` (R156). -/
def frommontT {w : Nat} (k : Ctx w) (a : Limbs w) : Traced (Limbs w) := mmT k a (limbsOf w k.m.length 1)

/-- One modular doubling of R155: an add, a subtract, a select. -/
def mdbl {w : Nat} (m x : Limbs w) : Limbs w :=
  let s := addN x x
  let d := subN s.1 m
  selectN (s.2 || !d.2) d.1 s.1

/-- `k` modular doublings, one event each (R155, R288). -/
def doublings {w : Nat} (m : Limbs w) : Nat → Limbs w → Traced (Limbs w)
  | 0, x => .pure x
  | k + 1, x => (Traced.mk (mdbl m x) [.mdbl m.length]).bind (doublings m k)

/-- `MKCTX(mvec)`: `N0`, then 1 reduced modulo `m`, then `2*W*n` doublings; `ONE` is the value half way (R155). The
curve constants of the result are empty. -/
def mkctx {w : Nat} (m : Limbs w) : Traced (Ctx w) :=
  let n := m.length
  (Traced.mk (n0inv (m.headD 0)) [.n0 1]).bind fun n0 =>
  (subT (limbsOf w n 1) m).bind fun d =>
  (selectT (!d.2) d.1 (limbsOf w n 1)).bind fun x =>
  (doublings m (w * n) x).bind fun one =>
  (doublings m (w * n) one).bind fun rr =>
  .pure { m := m, one := one, rr := rr, n0 := n0, a := [], b := [], b3 := [] }

/-- `FADD(x, y, ctx)`: add, subtract, select (45_ec_point_adder.md R202). -/
def faddT {w : Nat} (k : Ctx w) (x y : Limbs w) : Traced (Limbs w) :=
  (addT x y).bind fun s =>
  (subT s.1 k.m).bind fun d =>
  selectT (s.2 || !d.2) d.1 s.1

/-- `FSUB(x, y, ctx)`: subtract, add, select (45_ec_point_adder.md R202). -/
def fsubT {w : Nat} (k : Ctx w) (x y : Limbs w) : Traced (Limbs w) :=
  (subT x y).bind fun d =>
  (addT d.1 k.m).bind fun s =>
  selectT d.2 s.1 d.1

end Sys2Proof.Machine
end

