-- ==== Sys2Proof/Machine/Curve.lean ====
section
/-! DEFINITION. The functions of the point adder and the scalar multiplier: PADD, ONCURVE (45_ec_point_adder.md R203, R205),
SCALARMULT (46_ecc_scalar_multiplier.md R220). -/

namespace Sys2Proof.Machine

/-- A projective triple of field elements (45_ec_point_adder.md R201). -/
structure Point (w : Nat) where
  x : Limbs w
  y : Limbs w
  z : Limbs w
  deriving DecidableEq, Repr

/-- `PADD(P, Q, ctx)`: the fixed sequence of R203, name for name, with every unit operation recorded. -/
def paddT {w : Nat} (k : Ctx w) (p q : Point w) : Traced (Point w) :=
  (mmT k p.x q.x).bind fun t0 =>
  (mmT k p.y q.y).bind fun t1 =>
  (mmT k p.z q.z).bind fun t2 =>
  (faddT k p.x p.y).bind fun u0 =>
  (faddT k q.x q.y).bind fun u1 =>
  (mmT k u0 u1).bind fun t3a =>
  (fsubT k t3a t0).bind fun t3b =>
  (fsubT k t3b t1).bind fun t3 =>
  (faddT k p.x p.z).bind fun u2 =>
  (faddT k q.x q.z).bind fun u3 =>
  (mmT k u2 u3).bind fun t4a =>
  (fsubT k t4a t0).bind fun t4b =>
  (fsubT k t4b t2).bind fun t4 =>
  (faddT k p.y p.z).bind fun u4 =>
  (faddT k q.y q.z).bind fun u5 =>
  (mmT k u4 u5).bind fun t5a =>
  (fsubT k t5a t1).bind fun t5b =>
  (fsubT k t5b t2).bind fun t5 =>
  (mmT k k.a t4).bind fun z3a =>
  (mmT k k.b3 t2).bind fun x3a =>
  (faddT k x3a z3a).bind fun z3b =>
  (fsubT k t1 z3b).bind fun x3b =>
  (faddT k t1 z3b).bind fun z3c =>
  (mmT k x3b z3c).bind fun y3a =>
  (faddT k t0 t0).bind fun t1a =>
  (faddT k t1a t0).bind fun t1b =>
  (mmT k k.a t2).bind fun t2a =>
  (mmT k k.b3 t4).bind fun t4c =>
  (faddT k t1b t2a).bind fun t1c =>
  (fsubT k t0 t2a).bind fun t2b =>
  (mmT k k.a t2b).bind fun t2c =>
  (faddT k t4c t2c).bind fun t4d =>
  (mmT k t1c t4d).bind fun t0a =>
  (faddT k y3a t0a).bind fun y3 =>
  (mmT k t5 t4d).bind fun t0b =>
  (mmT k t3 x3b).bind fun x3c =>
  (fsubT k x3c t0b).bind fun x3 =>
  (mmT k t3 t1c).bind fun t0c =>
  (mmT k t5 z3c).bind fun z3d =>
  (faddT k z3d t0c).bind fun z3 =>
  .pure { x := x3, y := y3, z := z3 }

/-- `PADD` as one event of a command's trace, `PADD(n)` (70_reset_and_hazards.md R288, R290). -/
def paddE {w : Nat} (k : Ctx w) (p q : Point w) : Traced (Point w) :=
  (paddT k p q).recordAs [.padd k.m.length]

/-- The answer of `ONCURVE`: whether the equation holds, and the coordinates in Montgomery form (R205). -/
structure CurveCheck (w : Nat) where
  ok : Bool
  xm : Limbs w
  ym : Limbs w
  deriving DecidableEq, Repr

/-- `ONCURVE(x, y, ctx)` (R205). -/
def oncurveT {w : Nat} (k : Ctx w) (x y : Limbs w) : Traced (CurveCheck w) :=
  (tomontT k x).bind fun xm =>
  (tomontT k y).bind fun ym =>
  (mmT k ym ym).bind fun lhs =>
  (mmT k xm xm).bind fun x2 =>
  (mmT k x2 xm).bind fun x3 =>
  (mmT k k.a xm).bind fun ax =>
  (faddT k x3 ax).bind fun r1 =>
  (faddT k r1 k.b).bind fun rhs =>
  (cmpT lhs rhs).bind fun r =>
  .pure { ok := r.eq, xm := xm, ym := ym }

/-- The point at infinity as `PTINF` writes it: `(0, ONE, 0)` (R201, R208). -/
def infinity {w : Nat} (k : Ctx w) : Point w :=
  { x := limbsOf w k.m.length 0, y := k.one, z := limbsOf w k.m.length 0 }

/-- The steps of `SCALARMULT` for the bits `i-1` down to 0: a doubling, an addition, three selects each (R220). -/
def ladder {w : Nat} (k : Ctx w) (p : Point w) (scalar : Nat) : Nat → Point w → Traced (Point w)
  | 0, acc => .pure acc
  | i + 1, acc =>
    (paddE k acc acc).bind fun dbl =>
    (paddE k dbl p).bind fun t =>
    (selectT (scalar.testBit i) t.x dbl.x).bind fun x =>
    (selectT (scalar.testBit i) t.y dbl.y).bind fun y =>
    (selectT (scalar.testBit i) t.z dbl.z).bind fun z =>
    ladder k p scalar i { x := x, y := y, z := z }

/-- `SCALARMULT(P, k, nbits, ctx)` (R220). -/
def scalarMultT {w : Nat} (k : Ctx w) (p : Point w) (scalar nbits : Nat) : Traced (Point w) :=
  ladder k p scalar nbits (infinity k)

end Sys2Proof.Machine
end

