-- ==== Sys2Proof/Machine/Ops.lean ====
section
/-! DEFINITION. The named operations every command and every host access is written with: registers and slots, the
completion of a command (10_state.md R30), the completion with an error (60_exceptions.md R243) and the return from it
(R245), reset (70_reset_and_hazards.md R270, R271), and the randomness port (60_exceptions.md R262). -/

namespace Sys2Proof.Machine

/-- What one step answers. -/
abbrev StepResult := Host.Outcome State Fault Refusal

/-! Configuration (00_scope.md R8). -/

/-- `LMAX = LMAXBITS / W`. -/
def lmax (p : Params) : Nat := p.lmaxBits / p.w

/-- `KL = ceil(BLIND_BITS / W)`. -/
def klimbs (p : Params) : Nat := (p.blindBits + p.w - 1) / p.w

/-- `nbytes = BLIND_BITS / 8` (60_exceptions.md R262). -/
def blindBytes (p : Params) : Nat := p.blindBits / 8

/-! Registers and slots. -/

/-- `V[i]`. -/
def State.reg (s : State) (i : VIdx) : VReg := s.v[i]

/-- `V[i] <- r`. -/
def State.setReg (s : State) (i : VIdx) (r : VReg) : State := { s with v := s.v.set i r }

/-- `C[k]`. -/
def State.slot (s : State) (k : CIdx) : Slot := s.c[k]

/-- `C[k] <- x`. -/
def State.setSlot (s : State) (k : CIdx) (x : Slot) : State := { s with c := s.c.set k x }

/-- The register that holds limb vector `a` with its tag: `(a, FORM, CTX)` (00_scope.md R13, 10_state.md R23). -/
def mkReg {w : Nat} (form : Form) (ctx : CIdx) (a : Limbs w) : VReg :=
  { valid := true, len := a.length, form := form, ctx := ctx, data := BitVec.ofNat 4096 (val a) }

/-- `V[i] <- (a, FORM, CTX)` (00_scope.md R13). -/
def State.write {w : Nat} (s : State) (i : VIdx) (form : Form) (ctx : CIdx) (a : Limbs w) : State :=
  s.setReg i (mkReg form ctx a)

/-- Every register that meets `p` is cleared (10_state.md R26). -/
def State.clearWhere (s : State) (p : VReg → Bool) : State :=
  { s with v := s.v.map fun r => if p r then VReg.cleared else r }

/-! The end of a command. -/

/-- The error classes of 60_exceptions.md R240: contract violation, malformed input, resource unavailability. -/
inductive ErrClass where
  | contract
  | malformed
  | resource
  deriving DecidableEq, Repr

/-- The class of a code (60_exceptions.md R241). -/
def errClass : ErrCode → ErrClass
  | .eIllegal => .contract
  | .eRegidx => .contract
  | .eCtx => .contract
  | .eInvalidReg => .contract
  | .eForm => .contract
  | .eLen => .contract
  | .eModEven => .contract
  | .eAlias => .contract
  | .eRange => .malformed
  | .eNotOnCurve => .malformed
  | .ePointInf => .malformed
  | .eRng => .resource

/-- `CLASS`, bits 9:8 of `ERR` (10_state.md R42). -/
def classNumber : ErrClass → Nat
  | .contract => 1
  | .malformed => 2
  | .resource => 3

/-- `CODE`, bits 7:0 of `ERR` (60_exceptions.md R241). -/
def codeNumber : ErrCode → Nat
  | .eIllegal => 0x01
  | .eRegidx => 0x02
  | .eCtx => 0x03
  | .eInvalidReg => 0x04
  | .eForm => 0x05
  | .eLen => 0x06
  | .eModEven => 0x07
  | .eAlias => 0x08
  | .eRange => 0x10
  | .eNotOnCurve => 0x11
  | .ePointInf => 0x12
  | .eRng => 0x20

/-- What `ERR` reads: `CLASS << 8 | CODE`, 0 for no error (10_state.md R42, 60_exceptions.md R241). -/
def errWord : Option ErrCode → Word
  | none => 0
  | some e => BitVec.ofNat 32 (classNumber (errClass e) <<< 8 ||| codeNumber e)

/-- Completion without error (10_state.md R30): `STATUS.BUSY <- 0; STATUS.DONE <- 1`; `tr` is the command's trace. -/
def complete (tr : List TraceEvent) (s : State) : StepResult :=
  .next { s with busy := false, done := true, trace := tr }

/-- The state a command that ends with `e` leaves (60_exceptions.md R243, R244): `ERR` written, `FATAL` set for class 1,
`BUSY` 0, `DONE` 1, and nothing else; `tr` is the trace of the work done before (70_reset_and_hazards.md R292). -/
def errorState (e : ErrCode) (tr : List TraceEvent) (s : State) : State :=
  { s with err := some e
           fatal := s.fatal || (errClass e == .contract)
           busy := false
           done := true
           trace := tr }

/-- `raise E_<NAME>`: the hardware's exception, the one way a command ends in error (00_scope.md R13, 60_exceptions.md R243). -/
def raise (e : ErrCode) (tr : List TraceEvent) (s : State) : StepResult := .next (errorState e tr s)

/-- The return from a recoverable error: `ERR <- 0`, so that commands are accepted again (60_exceptions.md R245). -/
def State.clearErr (s : State) : State := { s with err := none }

/-- One check of a command: where it fails the command ends with `e`, after the work of `tr` (60_exceptions.md R246). -/
def require (ok : Bool) (e : ErrCode) (tr : List TraceEvent) (s : State) (rest : StepResult) : StepResult :=
  if ok then rest else raise e tr s

/-! Reset. -/

/-- Every piece of the block's state at its reset value (10_state.md R50); the configuration, what the outside is still
to do and what the bus has answered are not the block's state and stay. -/
def State.resetBlock (s : State) : State :=
  { State.reset with
    params := s.params, events := s.events, answers := s.answers, rng := s.rng, rngCount := s.rngCount }

/-- `ZEROIZE`'s effect: every register and slot cleared, `FLAGS` 0 (47_system_commands.md R231). -/
def State.zeroizeAll (s : State) : State :=
  { s with v := Vector.replicate 16 VReg.cleared, c := Vector.replicate 4 Slot.empty, flags := Flags.clear }

/-! The randomness port. -/

/-- One request on the randomness port: the answer, and the state with the request counted (60_exceptions.md R262). The
answer is the first scripted one, or the free value of this request (log 3). -/
def State.drawRng (s : State) : RngAnswer × State :=
  match s.rng with
  | a :: rest => (a, { s with rng := rest, rngCount := s.rngCount + 1 })
  | [] => (Config.rngAnswer s.rngCount, { s with rngCount := s.rngCount + 1 })

end Sys2Proof.Machine
end

