-- ==== Sys2Proof/Machine/Operands.lean ====
section
/-! DEFINITION. The operand forms of the commands (30_encoding.md R94): a register as a limb vector, a point as a triple
of registers, a slot as a context; and the checks on their tags (60_exceptions.md R246 steps 2 to 6). -/

namespace Sys2Proof.Machine

/-! Registers. -/

/-- `V[i]` as a limb vector of length `V[i].LEN` (00_scope.md R13). -/
def State.limbs (s : State) (i : VIdx) : Limbs s.params.w :=
  limbsOf s.params.w (s.reg i).len (s.reg i).data.toNat

/-- `VALID` (R246 step 4). -/
def isValid (s : State) (i : VIdx) : Bool := (s.reg i).valid

/-- `FORM = STD` (R246 step 5). -/
def isStd (s : State) (i : VIdx) : Bool := (s.reg i).form == .std

/-- `FORM = MONT` and `CTX = cx` (R246 step 5). -/
def isMont (s : State) (i : VIdx) (cx : CIdx) : Bool := (s.reg i).form == .mont && (s.reg i).ctx == cx

/-- Two operands agree in `FORM` and `CTX` (40_limb_adder_subtractor.md R128). -/
def sameForm (s : State) (i j : VIdx) : Bool :=
  (s.reg i).form == (s.reg j).form && (s.reg i).ctx == (s.reg j).ctx

/-- `FORM` is `STD` or `MONT` (41_conditional_select.md R143). -/
def isSelectable (s : State) (i : VIdx) : Bool := (s.reg i).form == .std || (s.reg i).form == .mont

/-- Two operands have one `LEN` (R246 step 6). -/
def sameLen (s : State) (i j : VIdx) : Bool := (s.reg i).len == (s.reg j).len

/-- `LEN = n` (R246 step 6). -/
def hasLen (s : State) (i : VIdx) (n : Nat) : Bool := (s.reg i).len == n

/-! Points (10_state.md R27). -/

/-- A point field names a base register of at most 13 (R246 step 2a). -/
def isBase (b : VIdx) : Bool := b.val ≤ 13

/-- All three registers of the triple are valid. -/
def tripleValid (s : State) (b : VIdx) : Bool := isValid s b && isValid s (b + 1) && isValid s (b + 2)

/-- The triple's forms are `PX, PY, PZ` in that order and all its `CTX` fields equal `cx`. -/
def tripleTagged (s : State) (b : VIdx) (cx : CIdx) : Bool :=
  (s.reg b).form == .px && (s.reg (b + 1)).form == .py && (s.reg (b + 2)).form == .pz &&
  (s.reg b).ctx == cx && (s.reg (b + 1)).ctx == cx && (s.reg (b + 2)).ctx == cx

/-- The triple `(V[b], V[b+1], V[b+2])`. -/
def State.point (s : State) (b : VIdx) : Point s.params.w :=
  { x := s.limbs b, y := s.limbs (b + 1), z := s.limbs (b + 2) }

/-- `V[b] <- (X, PX, cx); V[b+1] <- (Y, PY, cx); V[b+2] <- (Z, PZ, cx)` (10_state.md R25). -/
def State.writePoint {w : Nat} (s : State) (b : VIdx) (cx : CIdx) (p : Point w) : State :=
  ((s.write b .px cx p.x).write (b + 1) .py cx p.y).write (b + 2) .pz cx p.z

/-! Slots. -/

/-- `C[cx].CVALID = 1` (R246 step 3). -/
def slotLoaded (s : State) (cx : CIdx) : Bool := (s.slot cx).cvalid

/-- `C[cx].CVALID = 1` and `C[cx].KVALID = 1` (R246 step 3). -/
def curveLoaded (s : State) (cx : CIdx) : Bool := (s.slot cx).cvalid && (s.slot cx).kvalid

/-- Slot `cx` as limb vectors of `CLEN` limbs. -/
def State.ctx (s : State) (cx : CIdx) : Ctx s.params.w :=
  let k := s.slot cx
  let l := fun (x : VData) => limbsOf s.params.w k.clen x.toNat
  { m := l k.m, one := l k.one, rr := l k.rr, n0 := BitVec.ofNat s.params.w k.n0.toNat,
    a := l k.a, b := l k.b, b3 := l k.b3 }

/-- The group order of slot `cx`, `ORDLEN` limbs. -/
def State.order (s : State) (cx : CIdx) : Limbs s.params.w :=
  limbsOf s.params.w (s.slot cx).ordlen (s.slot cx).ord.toNat

/-- A limb vector as the data bits of a slot's field. -/
def packed {w : Nat} (a : Limbs w) : VData := BitVec.ofNat 4096 (val a)

end Sys2Proof.Machine
end

