-- ==== Sys2Proof/Machine/Csel.lean ====
section
/-! DEFINITION. The conditional select: SEL, CSWAP (41_conditional_select.md R143, R144). -/

namespace Sys2Proof.Machine

/-- The checks of SEL and CSWAP (R143): the selector assigned, both sources valid, STD or MONT, one FORM and CTX, one LEN. -/
def selectChecks (ra rb : VIdx) (cond : BitVec 4) (s : State) (rest : StepResult) : StepResult :=
  require (condAssigned cond) .eIllegal [] s <|
  require (isValid s ra && isValid s rb) .eInvalidReg [] s <|
  require (isSelectable s ra && isSelectable s rb && sameForm s ra rb) .eForm [] s <|
  require (sameLen s ra rb) .eLen [] s rest

/-- SEL (R143): `V[rd]` becomes `V[ra]` for a set flag, `V[rb]` for a clear one, with the common tag. -/
def execSel (rd ra rb : VIdx) (cond : BitVec 4) (s : State) : StepResult :=
  selectChecks ra rb cond s <|
  let r := selectT (flagVal s.flags cond) (s.limbs ra) (s.limbs rb)
  complete r.trace (s.write rd (s.reg ra).form (s.reg ra).ctx r.val)

/-- CSWAP (R144): the two registers are exchanged for a set flag; both are written whatever it is. -/
def execCswap (ra rb : VIdx) (cond : BitVec 4) (s : State) : StepResult :=
  selectChecks ra rb cond s <|
  let r := cswapT (flagVal s.flags cond) (s.limbs ra) (s.limbs rb)
  complete r.trace
    ((s.write ra (s.reg ra).form (s.reg ra).ctx r.val.1).write rb (s.reg rb).form (s.reg rb).ctx r.val.2)

end Sys2Proof.Machine
end

