-- ==== Sys2Proof/Machine/Exponent.lean ====
section
/-! DEFINITION. The functions of the exponentiation engine: MODEXP, EQW (43_modexp_engine.md R171), BLINDEXP (R174). -/

namespace Sys2Proof.Machine

/-- The table entries after `prev`, `count` of them, each the one before times `base` (R171). -/
def powTable {w : Nat} (k : Ctx w) (base : Limbs w) : Nat → Limbs w → Traced (List (Limbs w))
  | 0, _ => .pure []
  | count + 1, prev =>
    (mmT k prev base).bind fun t =>
    (powTable k base count t).bind fun ts => .pure (t :: ts)

/-- `count` squarings (R171). -/
def squarings {w : Nat} (k : Ctx w) : Nat → Limbs w → Traced (Limbs w)
  | 0, acc => .pure acc
  | count + 1, acc => (mmT k acc acc).bind (squarings k count)

/-- `EQW(i, x)`: 1 iff `i = x`, for `win`-bit values, with no branch (R171). -/
def eqw (win i x : Nat) : Bool :=
  let d : BitVec win := BitVec.ofNat win i ^^^ BitVec.ofNat win x
  !(d ||| (0 - d)).getLsbD (win - 1)

/-- Selection of entry `x` by reading every entry; `i` is the index of the table's first entry here (R171). -/
def lookup {w : Nat} (win x : Nat) : Nat → List (Limbs w) → Limbs w → Traced (Limbs w)
  | _, [], sel => .pure sel
  | i, t :: ts, sel => (selectT (eqw win i x) t sel).bind (lookup win x (i + 1) ts)

/-- The windows `j-1` down to 0 of the exponent `e` (R171). -/
def windows {w : Nat} (k : Ctx w) (win : Nat) (table : List (Limbs w)) (e : Nat) : Nat → Limbs w → Traced (Limbs w)
  | 0, acc => .pure acc
  | j + 1, acc =>
    (squarings k win acc).bind fun sq =>
    (lookup win ((e >>> (j * win)) % 2 ^ win) 0 table (limbsOf w k.m.length 0)).bind fun sel =>
    (mmT k sq sel).bind (windows k win table e j)

/-- `nwin = ceil(nb / WIN)` (R171). -/
def windowCount (win nb : Nat) : Nat := (nb + win - 1) / win

/-- `MODEXP(base, E, nb, ctx)` (R171). -/
def modexpT {w : Nat} (k : Ctx w) (win : Nat) (base : Limbs w) (e nb : Nat) : Traced (Limbs w) :=
  (powTable k base (2 ^ win - 2) base).bind fun ts =>
  windows k win (k.one :: base :: ts) e (windowCount win nb) k.one

/-- `k = sum of byte[i] * 256^i` over the first `nbytes` bytes of the response, `byte[0]` least significant (R174). -/
def blindFactor : Nat → List Byte → Nat
  | nbytes + 1, b :: bs => b.toNat + 256 * blindFactor nbytes bs
  | _, _ => 0

/-- `L2`, the limbs of the blinded exponent (R174). -/
def blindLimbs (lenE lenL kl : Nat) : Nat := max lenE (lenL + kl) + 1

end Sys2Proof.Machine
end

