-- ==== Sys2Proof/Machine/Ecpa.lean ====
section
/-! DEFINITION. The point adder: CRVLOAD, PTLOAD, PTINF, PTADD, PTDBL, PTAFF (45_ec_point_adder.md R206 to R211). -/

namespace Sys2Proof.Machine

/-- The points that a reload of slot `cx`'s curve destroys (R206). -/
def pointOf (cx : CIdx) (r : VReg) : Bool :=
  r.valid && (r.form == .px || r.form == .py || r.form == .pz) && r.ctx == cx

/-- Both operands are compared with the modulus whatever the first comparison gives (R206, R207). -/
def rangeT {w : Nat} (m a b : Limbs w) : Traced Bool :=
  (cmpT a m).bind fun ra => (cmpT b m).bind fun rb => .pure (ra.lt && rb.lt)

/-- The curve constants of CRVLOAD: `A`, `B`, `B3 = B + B + B` (R206). -/
def curveConstT {w : Nat} (k : Ctx w) (a b : Limbs w) : Traced (Limbs w × Limbs w × Limbs w) :=
  (tomontT k a).bind fun am =>
  (tomontT k b).bind fun bm =>
  (faddT k bm bm).bind fun b2 =>
  (faddT k b2 bm).bind fun b3 => .pure (am, bm, b3)

/-- CRVLOAD (R206): the slot's points are destroyed and the curve extension is written. -/
def execCrvload (ra rb rc : VIdx) (cx : CIdx) (s : State) : StepResult :=
  require (slotLoaded s cx) .eCtx [] s <|
  require (isValid s ra && isValid s rb && isValid s rc) .eInvalidReg [] s <|
  require (isStd s ra && isStd s rb && isStd s rc) .eForm [] s <|
  require (hasLen s ra (s.slot cx).clen && hasLen s rb (s.slot cx).clen) .eLen [] s <|
  let k := s.ctx cx
  let r := rangeT k.m (s.limbs ra) (s.limbs rb)
  require r.val .eRange r.trace s <|
  let q := curveConstT k (s.limbs ra) (s.limbs rb)
  complete (r.trace ++ q.trace)
    ((s.clearWhere (pointOf cx)).setSlot cx
      { s.slot cx with
        kvalid := true, a := packed q.val.1, b := packed q.val.2.1, b3 := packed q.val.2.2
        ord := packed (s.limbs rc), ordlen := (s.reg rc).len })

/-- PTLOAD (R207): affine coordinates, range-checked and curve-checked, become the triple `(x, y, 1)`. -/
def execPtload (rd ra rb : VIdx) (cx : CIdx) (s : State) : StepResult :=
  require (isBase rd) .eRegidx [] s <|
  require (curveLoaded s cx) .eCtx [] s <|
  require (isValid s ra && isValid s rb) .eInvalidReg [] s <|
  require (isStd s ra && isStd s rb) .eForm [] s <|
  require (hasLen s ra (s.slot cx).clen && hasLen s rb (s.slot cx).clen) .eLen [] s <|
  let k := s.ctx cx
  let r := rangeT k.m (s.limbs ra) (s.limbs rb)
  require r.val .eRange r.trace s <|
  let q := oncurveT k (s.limbs ra) (s.limbs rb)
  require q.val.ok .eNotOnCurve (r.trace ++ q.trace) s <|
  complete (r.trace ++ q.trace) (s.writePoint rd cx { x := q.val.xm, y := q.val.ym, z := k.one })

/-- PTINF (R208): the point at infinity `(0, ONE, 0)`. -/
def execPtinf (rd : VIdx) (cx : CIdx) (s : State) : StepResult :=
  require (isBase rd) .eRegidx [] s <|
  require (curveLoaded s cx) .eCtx [] s <|
  complete [] (s.writePoint rd cx (infinity (s.ctx cx)))

/-- PTADD (R209). -/
def execPtadd (rd ra rb : VIdx) (cx : CIdx) (s : State) : StepResult :=
  require (isBase rd && isBase ra && isBase rb) .eRegidx [] s <|
  require (curveLoaded s cx) .eCtx [] s <|
  require (tripleValid s ra && tripleValid s rb) .eInvalidReg [] s <|
  require (tripleTagged s ra cx && tripleTagged s rb cx) .eForm [] s <|
  let t := paddE (s.ctx cx) (s.point ra) (s.point rb)
  complete t.trace (s.writePoint rd cx t.val)

/-- PTDBL (R210): PADD of the point with itself. -/
def execPtdbl (rd ra : VIdx) (cx : CIdx) (s : State) : StepResult :=
  require (isBase rd && isBase ra) .eRegidx [] s <|
  require (curveLoaded s cx) .eCtx [] s <|
  require (tripleValid s ra) .eInvalidReg [] s <|
  require (tripleTagged s ra cx) .eForm [] s <|
  let t := paddE (s.ctx cx) (s.point ra) (s.point ra)
  complete t.trace (s.writePoint rd cx t.val)

/-- What PTAFF computes: whether `Z = 0`, then `x` and `y` by the inverse `Z^(p-2)` (R211). -/
def affineT {w : Nat} (k : Ctx w) (win : Nat) (p : Point w) : Traced (Bool × Limbs w × Limbs w) :=
  (isZeroT p.z).bind fun inf =>
  (subT k.m (limbsOf w k.m.length 2)).bind fun e =>
  (modexpT k win p.z (val e.1) (w * k.m.length)).bind fun zi =>
  (mmT k p.x zi).bind fun xm =>
  (frommontT k xm).bind fun x =>
  (mmT k p.y zi).bind fun ym =>
  (frommontT k ym).bind fun y => .pure (inf, x, y)

/-- PTAFF (R211): the affine coordinates to `V[rd]` and `V[rb]`, and `FLAGS.INF`. -/
def execPtaff (rd ra rb : VIdx) (cx : CIdx) (s : State) : StepResult :=
  require (isBase ra) .eRegidx [] s <|
  require (rd != rb) .eAlias [] s <|
  require (curveLoaded s cx) .eCtx [] s <|
  require (tripleValid s ra) .eInvalidReg [] s <|
  require (tripleTagged s ra cx) .eForm [] s <|
  let t := affineT (s.ctx cx) s.params.win (s.point ra)
  complete t.trace (setInf ((s.write rd .std 0 t.val.2.1).write rb .std 0 t.val.2.2) t.val.1)

end Sys2Proof.Machine
end

