-- ==== Sys2Proof/Machine/Ecsm.lean ====
section
/-! DEFINITION. The scalar multiplier: SCMUL (46_ecc_scalar_multiplier.md R222). -/

namespace Sys2Proof.Machine

/-- SCMUL (R222): the scalar range check, the zero test of `Z` (performed whether NOINF is set or not), then
`W * ORDLEN` steps. -/
def execScmul (rd ra rb : VIdx) (cx : CIdx) (noinf : Bool) (s : State) : StepResult :=
  require (isBase rd && isBase ra) .eRegidx [] s <|
  require (curveLoaded s cx) .eCtx [] s <|
  require (tripleValid s ra && isValid s rb) .eInvalidReg [] s <|
  require (tripleTagged s ra cx && isStd s rb) .eForm [] s <|
  require (hasLen s rb (s.slot cx).ordlen) .eLen [] s <|
  let r := cmpT (s.limbs rb) (s.order cx)
  require r.val.lt .eRange r.trace s <|
  let z := isZeroT (s.limbs (ra + 2))
  require (!(noinf && z.val)) .ePointInf (r.trace ++ z.trace) s <|
  let t := scalarMultT (s.ctx cx) (s.point ra) (val (s.limbs rb)) (s.params.w * (s.slot cx).ordlen)
  complete (r.trace ++ z.trace ++ t.trace) (s.writePoint rd cx t.val)

end Sys2Proof.Machine
end

