-- ==== Sys2Proof/Machine/Las.lean ====
section
/-! DEFINITION. The limb adder/subtractor: ADD, SUB, CMP, ISZERO (40_limb_adder_subtractor.md R126 to R129). -/

namespace Sys2Proof.Machine

/-- The checks of ADD and SUB (R126): both sources valid, both STD, one LEN. -/
def addSubChecks (ra rb : VIdx) (s : State) (rest : StepResult) : StepResult :=
  require (isValid s ra && isValid s rb) .eInvalidReg [] s <|
  require (isStd s ra && isStd s rb) .eForm [] s <|
  require (sameLen s ra rb) .eLen [] s rest

/-- ADD (R126): `V[rd] <- sum`, `FLAGS.C <- carry`. -/
def execAdd (rd ra rb : VIdx) (s : State) : StepResult :=
  addSubChecks ra rb s <|
  let r := addT (s.limbs ra) (s.limbs rb)
  complete r.trace (setC (s.write rd .std 0 r.val.1) r.val.2)

/-- SUB (R127): `V[rd] <- diff`, `FLAGS.C <- borrow`. -/
def execSub (rd ra rb : VIdx) (s : State) : StepResult :=
  addSubChecks ra rb s <|
  let r := subT (s.limbs ra) (s.limbs rb)
  complete r.trace (setC (s.write rd .std 0 r.val.1) r.val.2)

/-- CMP (R128): any form, both operands of one form, slot and length; writes LT, EQ, GT and no register. -/
def execCmp (ra rb : VIdx) (s : State) : StepResult :=
  require (isValid s ra && isValid s rb) .eInvalidReg [] s <|
  require (sameForm s ra rb) .eForm [] s <|
  require (sameLen s ra rb) .eLen [] s <|
  let r := cmpT (s.limbs ra) (s.limbs rb)
  complete r.trace (setCmp s r.val)

/-- ISZERO (R129): any form; writes Z and no register. -/
def execIszero (ra : VIdx) (s : State) : StepResult :=
  require (isValid s ra) .eInvalidReg [] s <|
  let r := isZeroT (s.limbs ra)
  complete r.trace (setZ s r.val)

end Sys2Proof.Machine
end

