-- ==== Sys2Proof/Machine/Mexp.lean ====
section
/-! DEFINITION. The exponentiation engine: MODEXP, MODEXPB (43_modexp_engine.md R173, R175). -/

namespace Sys2Proof.Machine

/-- MODEXP (R173): `V[rd] <- V[ra] ^ V[rb]` in Montgomery form; `nb = W * V[rb].LEN`. -/
def execModexp (rd ra rb : VIdx) (cx : CIdx) (s : State) : StepResult :=
  require (slotLoaded s cx) .eCtx [] s <|
  require (isValid s ra && isValid s rb) .eInvalidReg [] s <|
  require (isMont s ra cx && isStd s rb) .eForm [] s <|
  let t := modexpT (s.ctx cx) s.params.win (s.limbs ra) (val (s.limbs rb)) (s.params.w * (s.reg rb).len)
  complete t.trace (s.write rd .mont cx t.val)

/-- `RNG_OK` gives the bytes; `RNG_FAIL` and silence give none (60_exceptions.md R262). -/
def deliveredBytes : RngAnswer → Option (List Byte)
  | .ok bytes => some bytes
  | .fail => none
  | .silent => none

/-- MODEXPB (R175): the exponent is `E + k * lambda` for a fresh `k` from the randomness port, asked for after every
other check; without it the command ends with E_RNG and nothing is computed (60_exceptions.md R263). -/
def execModexpb (rd ra rb rc : VIdx) (cx : CIdx) (s : State) : StepResult :=
  require (slotLoaded s cx) .eCtx [] s <|
  require (isValid s ra && isValid s rb && isValid s rc) .eInvalidReg [] s <|
  require (isMont s ra cx && isStd s rb && isStd s rc) .eForm [] s <|
  let p := s.params
  let asked := s.drawRng
  match deliveredBytes asked.1 with
  | none => raise .eRng [.rng (blindBytes p)] asked.2
  | some bytes =>
    let k := blindFactor (blindBytes p) bytes
    let l2 := blindLimbs (s.reg rb).len (s.reg rc).len (klimbs p)
    let e2 := val (s.limbs rb) + k * val (s.limbs rc)
    let t := modexpT (s.ctx cx) p.win (s.limbs ra) e2 (p.w * l2)
    complete ([.rng (blindBytes p), .muladd (s.reg rc).len (klimbs p), .ladd l2] ++ t.trace)
      (asked.2.write rd .mont cx t.val)

end Sys2Proof.Machine
end

