-- ==== Sys2Proof/Machine/Mm.lean ====
section
/-! DEFINITION. The Montgomery multiplier: CTXLOAD, TOMONT, MONTMUL, MONTSQR, FROMMONT (42_montgomery_multiplier.md R157 to R161). -/

namespace Sys2Proof.Machine

/-- A slot that holds the context `k` of a modulus of `n` limbs and no curve (R157). -/
def loadedSlot {w : Nat} (n : Nat) (k : Ctx w) : Slot :=
  { Slot.empty with
    cvalid := true, clen := n, m := packed k.m, one := packed k.one, rr := packed k.rr
    n0 := BitVec.ofNat 64 k.n0.toNat }

/-- The registers that a reload of slot `cx` destroys: valid, not STD, tagged with the slot (R157). -/
def taggedWith (cx : CIdx) (r : VReg) : Bool := r.valid && r.form != .std && r.ctx == cx

/-- CTXLOAD (R157): the slot's values are destroyed and its context is made from the modulus `V[ra]`. -/
def execCtxload (ra : VIdx) (cx : CIdx) (s : State) : StepResult :=
  require (isValid s ra) .eInvalidReg [] s <|
  require (isStd s ra) .eForm [] s <|
  require ((s.limbs ra).headD 0 |>.getLsbD 0) .eModEven [] s <|
  let k := mkctx (s.limbs ra)
  complete k.trace ((s.clearWhere (taggedWith cx)).setSlot cx (loadedSlot (s.reg ra).len k.val))

/-- TOMONT (R158): `V[ra] < M` or E_RANGE, then `V[rd] <- TOMONT(V[ra])`. -/
def execTomont (rd ra : VIdx) (cx : CIdx) (s : State) : StepResult :=
  require (slotLoaded s cx) .eCtx [] s <|
  require (isValid s ra) .eInvalidReg [] s <|
  require (isStd s ra) .eForm [] s <|
  require (hasLen s ra (s.slot cx).clen) .eLen [] s <|
  let k := s.ctx cx
  let r := cmpT (s.limbs ra) k.m
  require r.val.lt .eRange r.trace s <|
  let t := tomontT k (s.limbs ra)
  complete (r.trace ++ t.trace) (s.write rd .mont cx t.val)

/-- MONTMUL (R159). -/
def execMontmul (rd ra rb : VIdx) (cx : CIdx) (s : State) : StepResult :=
  require (slotLoaded s cx) .eCtx [] s <|
  require (isValid s ra && isValid s rb) .eInvalidReg [] s <|
  require (isMont s ra cx && isMont s rb cx) .eForm [] s <|
  let t := mmT (s.ctx cx) (s.limbs ra) (s.limbs rb)
  complete t.trace (s.write rd .mont cx t.val)

/-- MONTSQR (R160): MONTMUL of the operand with itself. -/
def execMontsqr (rd ra : VIdx) (cx : CIdx) (s : State) : StepResult :=
  require (slotLoaded s cx) .eCtx [] s <|
  require (isValid s ra) .eInvalidReg [] s <|
  require (isMont s ra cx) .eForm [] s <|
  let t := mmT (s.ctx cx) (s.limbs ra) (s.limbs ra)
  complete t.trace (s.write rd .mont cx t.val)

/-- FROMMONT (R161): the result is in standard form. -/
def execFrommont (rd ra : VIdx) (cx : CIdx) (s : State) : StepResult :=
  require (slotLoaded s cx) .eCtx [] s <|
  require (isValid s ra) .eInvalidReg [] s <|
  require (isMont s ra cx) .eForm [] s <|
  let t := frommontT (s.ctx cx) (s.limbs ra)
  complete t.trace (s.write rd .std 0 t.val)

end Sys2Proof.Machine
end

