-- ==== Sys2Proof/Machine/System.lean ====
section
/-! DEFINITION. The system commands NOP and ZEROIZE (47_system_commands.md). -/

namespace Sys2Proof.Machine

/-- NOP (R230): nothing but completion. -/
def execNop (s : State) : StepResult := complete [] s

/-- ZEROIZE (R231): every register, every slot and FLAGS cleared; INTEN, ERR, CMD and FATAL kept. -/
def execZeroize (s : State) : StepResult := complete [] s.zeroizeAll

end Sys2Proof.Machine
end

