-- ==== Sys2Proof/Machine/Dispatch.lean ====
section
/-! DEFINITION. The meaning of every command, one arm per constructor. -/

namespace Sys2Proof.Machine

def exec (i : Instr) (s : State) : Host.Outcome State Fault Refusal :=
  match i with
  | .nop => Sys2Proof.Machine.execNop s
  | .zeroize => Sys2Proof.Machine.execZeroize s
  | .add rd ra rb => Sys2Proof.Machine.execAdd rd ra rb s
  | .sub rd ra rb => Sys2Proof.Machine.execSub rd ra rb s
  | .cmp ra rb => Sys2Proof.Machine.execCmp ra rb s
  | .iszero ra => Sys2Proof.Machine.execIszero ra s
  | .sel rd ra rb cond => Sys2Proof.Machine.execSel rd ra rb cond s
  | .cswap ra rb cond => Sys2Proof.Machine.execCswap ra rb cond s
  | .ctxload ra cx => Sys2Proof.Machine.execCtxload ra cx s
  | .tomont rd ra cx => Sys2Proof.Machine.execTomont rd ra cx s
  | .montmul rd ra rb cx => Sys2Proof.Machine.execMontmul rd ra rb cx s
  | .montsqr rd ra cx => Sys2Proof.Machine.execMontsqr rd ra cx s
  | .frommont rd ra cx => Sys2Proof.Machine.execFrommont rd ra cx s
  | .modexp rd ra rb cx => Sys2Proof.Machine.execModexp rd ra rb cx s
  | .modexpb rd ra rb rc cx => Sys2Proof.Machine.execModexpb rd ra rb rc cx s
  | .crvload ra rb rc cx => Sys2Proof.Machine.execCrvload ra rb rc cx s
  | .ptload rd ra rb cx => Sys2Proof.Machine.execPtload rd ra rb cx s
  | .ptinf rd cx => Sys2Proof.Machine.execPtinf rd cx s
  | .ptadd rd ra rb cx => Sys2Proof.Machine.execPtadd rd ra rb cx s
  | .ptdbl rd ra cx => Sys2Proof.Machine.execPtdbl rd ra cx s
  | .ptaff rd ra rb cx => Sys2Proof.Machine.execPtaff rd ra rb cx s
  | .scmul rd ra rb cx noinf => Sys2Proof.Machine.execScmul rd ra rb cx noinf s

end Sys2Proof.Machine
end

