-- ==== Sys2Proof/Machine/Window.lean ====
section
/-! DEFINITION. The register window: its map (20_memory.md R61), what each register reads and does when written
(10_state.md R36 to R46, 20_memory.md R67 to R69), which accesses are taken in which condition (R65), and one host access (R66). -/

namespace Sys2Proof.Machine

/-- The four exclusive conditions of the block (20_memory.md R65). -/
inductive Condition where
  | busy
  | fatal
  | errpend
  | idle
  deriving DecidableEq, Repr

/-- The block's condition (20_memory.md R65). -/
def State.condition (s : State) : Condition :=
  if s.busy then .busy else if s.fatal then .fatal else if s.err.isSome then .errpend else .idle

/-- A register of the window (10_state.md R35); `data i j` is word `j` of the data window of `V[i]`. -/
inductive WinReg where
  | id
  | cfg0
  | cfg1
  | ctrl
  | status
  | cmd
  | err
  | flags
  | inten
  | vtag (i : VIdx)
  | ctxtag (k : CIdx)
  | data (i : VIdx) (j : Fin 128)
  deriving DecidableEq, Repr

/-- The register at a byte offset; none for a misaligned or unmapped one (20_memory.md R61, R62, R64, R72). -/
def locate (off : Nat) : Option WinReg :=
  if off % 4 != 0 then none
  else if off < 0x24 then
    [WinReg.id, .cfg0, .cfg1, .ctrl, .status, .cmd, .err, .flags, .inten][off / 4]?
  else if 0x40 ≤ off && off < 0x80 then some (.vtag (Fin.ofNat 16 ((off - 0x40) / 4)))
  else if 0x80 ≤ off && off < 0x90 then some (.ctxtag (Fin.ofNat 4 ((off - 0x80) / 4)))
  else if 0x2000 ≤ off && off < 0x4000 then
    some (.data (Fin.ofNat 16 ((off - 0x2000) / 0x200)) (Fin.ofNat 128 ((off - 0x2000) % 0x200 / 4)))
  else none

/-! What registers read. -/

/-- The number of a form (10_state.md R23). -/
def formNumber : Form → Nat
  | .std => 0
  | .mont => 1
  | .px => 2
  | .py => 3
  | .pz => 4

/-- `CFG0` (10_state.md R37). -/
def cfg0Word (p : Params) : Word :=
  BitVec.ofNat 32 (p.w % 256 + (lmax p % 4096) <<< 8 + 16 <<< 20 + 4 <<< 25 + (p.win % 8) <<< 28)

/-- `CFG1` (10_state.md R38). -/
def cfg1Word (p : Params) : Word := BitVec.ofNat 32 (p.blindBits % 65536)

/-- `STATUS`: BUSY, DONE, ERR, FATAL from bit 0 (10_state.md R40). -/
def statusWord (s : State) : Word :=
  (BitVec.ofBool s.fatal ++ BitVec.ofBool (errWord s.err != 0) ++ BitVec.ofBool s.done ++ BitVec.ofBool s.busy :
    BitVec 4).setWidth 32

/-- `INTEN`: DONE_IE, ERR_IE from bit 0 (10_state.md R44). -/
def intenWord (e : Inten) : Word := (BitVec.ofBool e.errIe ++ BitVec.ofBool e.doneIe : BitVec 2).setWidth 32

/-- `VTAG[i]`: VALID 31, CTX 21:20, FORM 18:16, LEN 8:0; 0 for an invalid register (10_state.md R45). -/
def vtagWord (r : VReg) : Word :=
  if r.valid then BitVec.ofNat 32 (1 <<< 31 + r.ctx.val <<< 20 + formNumber r.form <<< 16 + r.len % 512) else 0

/-- `CTXTAG[k]`: CVALID 31, KVALID 30, ORDLEN 24:16, CLEN 8:0; 0 for an empty slot (10_state.md R46). -/
def ctxtagWord (k : Slot) : Word :=
  if k.cvalid then
    BitVec.ofNat 32 (1 <<< 31 + (if k.kvalid then 1 <<< 30 + (k.ordlen % 512) <<< 16 else 0) + k.clen % 512)
  else 0

/-- Word `j` of a register's data: bits `32*j+31 : 32*j` (20_memory.md R62, R63). -/
def dataWord (x : VData) (j : Nat) : Word := x.extractLsb' (32 * j) 32

/-- The data with word `j` replaced by `d` (20_memory.md R68). -/
def setDataWord (x : VData) (j : Nat) (d : Word) : VData :=
  (x &&& ~~~((0xFFFFFFFF : VData) <<< (32 * j))) ||| (d.setWidth 4096 <<< (32 * j))

/-- Word `j` of the data window is valid: the register is, and `j < LEN * W / 32` (20_memory.md R62). -/
def wordValid (s : State) (i : VIdx) (j : Nat) : Bool :=
  (s.reg i).valid && j < (s.reg i).len * s.params.w / 32

/-- The value of a read that the condition allows; none is `buserror`. -/
def readReg (s : State) : WinReg → Option Word
  | .id => some 0x52494E47
  | .cfg0 => some (cfg0Word s.params)
  | .cfg1 => some (cfg1Word s.params)
  | .ctrl => some 0
  | .status => some (statusWord s)
  | .cmd => some s.cmd
  | .err => some (errWord s.err)
  | .flags => some (flagsWord s.flags)
  | .inten => some (intenWord s.inten)
  | .vtag i => some (vtagWord (s.reg i))
  | .ctxtag k => some (ctxtagWord (s.slot k))
  | .data i j => if wordValid s i j then some (dataWord (s.reg i).data j) else none

/-! What writes do; none is `buserror`. -/

/-- Acceptance of a command: `CMD <- word; STATUS.BUSY <- 1; STATUS.DONE <- 0` (10_state.md R30). -/
def State.accept (s : State) (d : Word) : State := { s with cmd := d, busy := true, done := false }

/-- `CTRL`: exactly 1 is the soft reset (10_state.md R39, 70_reset_and_hazards.md R271). -/
def writeCtrl (s : State) (d : Word) : Option State := if d == 1 then some s.resetBlock else none

/-- `STATUS`: bit 1 clears DONE, 0 does nothing, any other bit is refused (10_state.md R40). -/
def writeStatus (s : State) (d : Word) : Option State :=
  if d &&& ~~~(2 : Word) != 0 then none
  else if d.getLsbD 1 then some { s with done := false } else some s

/-- `ERR`: any value clears it unless FATAL (10_state.md R42, 60_exceptions.md R245). -/
def writeErr (s : State) : Option State := if s.fatal then none else some s.clearErr

/-- `INTEN`: bits 31:2 must be 0 (10_state.md R44). -/
def writeInten (s : State) (d : Word) : Option State :=
  if d &&& ~~~(3 : Word) != 0 then none
  else some { s with inten := { doneIe := d.getLsbD 0, errIe := d.getLsbD 1 } }

/-- `VTAG[i]`: 0 clears the register, `1..LMAX` makes it a zero of that length, anything else is refused (20_memory.md R67). -/
def writeVtag (s : State) (i : VIdx) (d : Word) : Option State :=
  if d >>> 9 != 0 || lmax s.params < (d.extractLsb' 0 9).toNat then none
  else if d == 0 then some (s.setReg i VReg.cleared)
  else some (s.setReg i { VReg.cleared with valid := true, len := (d.extractLsb' 0 9).toNat })

/-- Word `j` of `V[i]`: only a valid word of a STD register (20_memory.md R68). -/
def writeData (s : State) (i : VIdx) (j : Nat) (d : Word) : Option State :=
  if wordValid s i j && (s.reg i).form == .std then
    some (s.setReg i { s.reg i with data := setDataWord (s.reg i).data j d })
  else none

/-- The effect of a write that the condition allows; read-only registers refuse. -/
def writeReg (s : State) (d : Word) : WinReg → Option State
  | .id => none
  | .cfg0 => none
  | .cfg1 => none
  | .ctrl => writeCtrl s d
  | .status => writeStatus s d
  | .cmd => some (s.accept d)
  | .err => writeErr s
  | .flags => none
  | .inten => writeInten s d
  | .vtag i => writeVtag s i d
  | .ctxtag _ => none
  | .data i j => writeData s i j d

/-! Which accesses are taken (20_memory.md R65). -/

/-- `ID`, `CFG0`, `CFG1`, `STATUS`: readable in every condition. -/
def alwaysReadable : WinReg → Bool
  | .id => true
  | .cfg0 => true
  | .cfg1 => true
  | .status => true
  | _ => false

/-- Reads the condition allows. -/
def readAllowed : Condition → WinReg → Bool
  | .busy, r => alwaysReadable r
  | .fatal, r => alwaysReadable r || r == .err
  | .errpend, _ => true
  | .idle, _ => true

/-- Writes the condition allows. -/
def writeAllowed : Condition → WinReg → Bool
  | .busy, _ => false
  | .fatal, r => r == .ctrl
  | .errpend, r => r != .cmd
  | .idle, _ => true

/-! One host access. -/

/-- The offset of an address on the host's bus, from the window's base address (20_memory.md R60); none below the base. -/
def windowOffset (p : Params) (addr : Nat) : Option Nat := if p.base ≤ addr then some (addr - p.base) else none

/-- A bus access as the window sees it: at its offset; none below the base. -/
def Access.toWindow (p : Params) : Access → Option Access
  | .read addr bytes => (windowOffset p addr).map fun off => .read off bytes
  | .write addr bytes d => (windowOffset p addr).map fun off => .write off bytes d

/-- `MemRead(off, bytes)`: the datum, or none for `buserror` (20_memory.md R64, R65). -/
def busRead (s : State) (off bytes : Nat) : Option Word :=
  if bytes != 4 then none
  else
    match locate off with
    | none => none
    | some r => if readAllowed s.condition r then readReg s r else none

/-- `MemWrite(off, bytes, d)`: the state after it, or none for `buserror` (20_memory.md R64, R65). -/
def busWrite (s : State) (off bytes : Nat) (d : Word) : Option State :=
  if bytes != 4 then none
  else
    match locate off with
    | none => none
    | some r => if writeAllowed s.condition r then writeReg s d r else none

/-- The bus's answer, recorded. -/
def State.answer (s : State) (a : BusAnswer) : State := { s with answers := a :: s.answers }

/-- One host access: its effect, and its answer; a refused one changes nothing (20_memory.md R66). -/
def hostAccess (s : State) : Access → State
  | .read off bytes =>
    match busRead s off bytes with
    | some d => s.answer (.data d)
    | none => s.answer .buserror
  | .write off bytes d =>
    match busWrite s off bytes d with
    | some t => t.answer .taken
    | none => s.answer .buserror

/-- An access on the host's bus. Every offset that R61's table does not list is unmapped, 0x4000 and above as well
(R72; 95_test_vectors.md section 8); an address below the base, which has no offset, is answered the same way (DESIGN
CHOICE, log 7). -/
def busAccess (s : State) (a : Access) : State :=
  match a.toWindow s.params with
  | some b => hostAccess s b
  | none => s.answer .buserror

/-- The interrupt line (60_exceptions.md R250): `(DONE & DONE_IE) | (STATUS.ERR & ERR_IE)`. -/
def State.irq (s : State) : Bool := (s.done && s.inten.doneIe) || (errWord s.err != 0 && s.inten.errIe)

end Sys2Proof.Machine
end

