-- ==== Sys2Proof/Machine/Sequencer.lean ====
section
/-! DEFINITION. The sequencer: completion of the accepted command (10_state.md R30), and one event of the outside. -/

namespace Sys2Proof.Machine

/-- The word in `CMD` is decoded and performed; a word that spells no command ends with E_ILLEGAL (30_encoding.md R97). -/
def runCommand (s : State) : StepResult :=
  match decode s.cmd with
  | .ok i => exec i s
  | .error _ => raise .eIllegal [] s

/-- The sequencer's turn: an accepted command completes; with none there is nothing to do (10_state.md R30). -/
def sequencerTurn (s : State) : StepResult := if s.busy then runCommand s else .next s

/-- One event of the outside, already taken from the list. Hard reset is one event: asserted and released, with no access
in between (DESIGN CHOICE, log 14). -/
def takeEvent (s : State) : Event → StepResult
  | .access a => .next (busAccess s a)
  | .sequencer => sequencerTurn s
  | .hardReset => .next s.resetBlock

/-- The next thing that happens: the first event, or, with none pending, the sequencer's turn (70_reset_and_hazards.md R285). -/
def nextTurn (s : State) : StepResult :=
  match s.events with
  | [] => sequencerTurn s
  | e :: rest => takeEvent { s with events := rest } e

/-- `s` with the word `w` accepted in `CMD` and the sequencer's turn next. -/
def acceptedWord (s : State) (nbits w : Nat) : State :=
  { s.accept (BitVec.ofNat 32 (w % 2 ^ nbits)) with events := .sequencer :: s.events }

end Sys2Proof.Machine
end

