-- ==== Sys2Proof/Machine/Step.lean ====
section
/-! DEFINITION. One step, and where a step finds its next command. -/

namespace Sys2Proof.Machine

/-- One step of the machine: one event of the outside, or the completion of the accepted command. -/
def step (s : State) : Host.Outcome State Fault Refusal := nextTurn s

/-- `s` with the command word `w` (the low `nbits` bits of it) accepted in `CMD`, so that the next step performs it (log 9). -/
def State.withFetchWord (s : State) (nbits w : Nat) : State := acceptedWord s nbits w

end Sys2Proof.Machine
end

