-- ==== Sys2Proof/Safety.lean ====
section
/-! DEFINITION. The vocabulary of the claims: legal configurations, the invariant of every reachable state (10_state.md R24,
R33), runs that ended well (70_reset_and_hazards.md R293), the public quantities and the traces of the constant-time rule
(R289, R290, R292), the order of the tag checks (60_exceptions.md R246), and the formulas of the point adder over any ring
(45_ec_point_adder.md R204). -/

namespace Sys2Proof.Machine

/-! Invariants. -/

/-- The legal values of 00_scope.md R8, and of `BASE` (20_memory.md R60). -/
abbrev LegalParams (p : Params) : Prop :=
  (p.w = 32 ∨ p.w = 64) ∧ (p.lmaxBits % 64 = 0 ∧ 64 ≤ p.lmaxBits ∧ p.lmaxBits ≤ 4096) ∧ (1 ≤ p.win ∧ p.win ≤ 5) ∧
  (p.blindBits % 8 = 0 ∧ 8 ≤ p.blindBits ∧ p.blindBits ≤ 256) ∧ p.base % 0x4000 = 0

/-- The Montgomery radix `2^(W*n)` (42_montgomery_multiplier.md R151). -/
abbrev radix (p : Params) (n : Nat) : Nat := 2 ^ (p.w * n)

/-- The register invariants (a) to (d) of 10_state.md R24, and `CTX = 0` for `STD` (R23). -/
abbrev RegOk (s : State) (r : VReg) : Prop :=
  (r.valid = false → r = VReg.cleared) ∧
  (r.valid = true → 1 ≤ r.len ∧ r.len ≤ lmax s.params ∧ r.data.toNat < radix s.params r.len) ∧
  (r.form = .std → r.ctx = 0) ∧
  (r.form ≠ .std →
    (s.slot r.ctx).cvalid = true ∧ r.len = (s.slot r.ctx).clen ∧ r.data.toNat < (s.slot r.ctx).m.toNat) ∧
  (r.form = .px ∨ r.form = .py ∨ r.form = .pz → (s.slot r.ctx).kvalid = true)

/-- The slot invariants of 10_state.md R33, with the fields of R32 and R34. -/
abbrev SlotOk (p : Params) (k : Slot) : Prop :=
  (k.cvalid = false → k = Slot.empty) ∧
  (k.cvalid = true →
    (1 ≤ k.clen ∧ k.clen ≤ lmax p) ∧ (k.m.toNat % 2 = 1 ∧ k.m.toNat < radix p k.clen) ∧
    k.one.toNat = radix p k.clen % k.m.toNat ∧ k.rr.toNat = radix p k.clen ^ 2 % k.m.toNat ∧
    (k.n0.toNat < 2 ^ p.w ∧ (k.m.toNat * k.n0.toNat + 1) % 2 ^ p.w = 0)) ∧
  (k.kvalid = false → k.a = 0 ∧ k.b = 0 ∧ k.b3 = 0 ∧ k.ord = 0 ∧ k.ordlen = 0) ∧
  (k.kvalid = true →
    k.cvalid = true ∧ (k.a.toNat < k.m.toNat ∧ k.b.toNat < k.m.toNat ∧ k.b3.toNat = 3 * k.b.toNat % k.m.toNat) ∧
    (1 ≤ k.ordlen ∧ k.ordlen ≤ lmax p) ∧ k.ord.toNat < radix p k.ordlen)

/-- A code is a contract violation (60_exceptions.md R240). -/
abbrev isContract (e : ErrCode) : Prop := errClass e = .contract

/-- `BUSY` only with no error pending and `DONE` clear (10_state.md R30, R41); `FATAL` exactly while `ERR` holds a code of
class 1 (60_exceptions.md R244). -/
abbrev StatusOk (s : State) : Prop :=
  (s.busy = true → s.err = none ∧ s.fatal = false ∧ s.done = false) ∧
  (s.fatal = true ↔ s.err.any (fun e => errClass e == .contract) = true)

/-- The invariant of every reachable state. -/
abbrev Inv (s : State) : Prop :=
  LegalParams s.params ∧ (∀ i : VIdx, RegOk s (s.reg i)) ∧ (∀ k : CIdx, SlotOk s.params (s.slot k)) ∧ StatusOk s

/-! Runs (70_reset_and_hazards.md R293). -/

/-- The event is a host access. -/
def Event.isAccess : Event → Bool
  | .access _ => true
  | .sequencer => false
  | .hardReset => false

/-- How many events there are up to the last host access, that one counted; 0 where there is none. -/
def throughLastAccess : List Event → Nat
  | [] => 0
  | e :: es =>
    let n := throughLastAccess es
    if n = 0 then (if e.isAccess then 1 else 0) else n + 1

/-- The end of the run from `s`, whose program is the accesses in `s.events`: the state once the last access has been made. -/
def runEnd (s : State) : Host.Outcome State Fault Refusal :=
  Host.Core.run Sys2Proof.core (throughLastAccess s.events) s

/-- The answers given in `t` since `s`, newest first. -/
def answersSince (s t : State) : List BusAnswer := t.answers.take (t.answers.length - s.answers.length)

/-- The run from `s` ends well: at its end no command is running, nothing is fatal, no error is pending, and no access of
the program was answered `buserror`. -/
def endsWell (s : State) : Prop :=
  ∃ t, runEnd s = .next t ∧ t.busy = false ∧ t.fatal = false ∧ t.err = none ∧
    BusAnswer.buserror ∉ answersSince s t

/-! What a command names (30_encoding.md R92). -/

/-- The registers of a point operand; none where the base is out of range (E_REGIDX comes first). -/
def tripleRegs (b : VIdx) : List VIdx := if b.val ≤ 13 then [b, b + 1, b + 2] else []

/-- The source registers of a command. -/
def sourceRegs : Instr → List VIdx
  | .nop => []
  | .zeroize => []
  | .add _ ra rb => [ra, rb]
  | .sub _ ra rb => [ra, rb]
  | .cmp ra rb => [ra, rb]
  | .iszero ra => [ra]
  | .sel _ ra rb _ => [ra, rb]
  | .cswap ra rb _ => [ra, rb]
  | .ctxload ra _ => [ra]
  | .tomont _ ra _ => [ra]
  | .montmul _ ra rb _ => [ra, rb]
  | .montsqr _ ra _ => [ra]
  | .frommont _ ra _ => [ra]
  | .modexp _ ra rb _ => [ra, rb]
  | .modexpb _ ra rb rc _ => [ra, rb, rc]
  | .crvload ra rb rc _ => [ra, rb, rc]
  | .ptload _ ra rb _ => [ra, rb]
  | .ptinf _ _ => []
  | .ptadd _ ra rb _ => tripleRegs ra ++ tripleRegs rb
  | .ptdbl _ ra _ => tripleRegs ra
  | .ptaff _ ra _ _ => tripleRegs ra
  | .scmul _ ra rb _ _ => tripleRegs ra ++ [rb]

/-- The destination registers of a command (30_encoding.md R92); a destination point with a base out of range has none. -/
def destRegs : Instr → List VIdx
  | .nop => []
  | .zeroize => []
  | .add rd _ _ => [rd]
  | .sub rd _ _ => [rd]
  | .cmp _ _ => []
  | .iszero _ => []
  | .sel rd _ _ _ => [rd]
  | .cswap ra rb _ => [ra, rb]
  | .ctxload _ _ => []
  | .tomont rd _ _ => [rd]
  | .montmul rd _ _ _ => [rd]
  | .montsqr rd _ _ => [rd]
  | .frommont rd _ _ => [rd]
  | .modexp rd _ _ _ => [rd]
  | .modexpb rd _ _ _ _ => [rd]
  | .crvload _ _ _ _ => []
  | .ptload rd _ _ _ => tripleRegs rd
  | .ptinf rd _ => tripleRegs rd
  | .ptadd rd _ _ _ => tripleRegs rd
  | .ptdbl rd _ _ => tripleRegs rd
  | .ptaff rd _ rb _ => [rd, rb]
  | .scmul rd _ _ _ _ => tripleRegs rd

/-- The point fields of a command (60_exceptions.md R246 step 2a). -/
def pointFields : Instr → List VIdx
  | .ptload rd _ _ _ => [rd]
  | .ptinf rd _ => [rd]
  | .ptadd rd ra rb _ => [rd, ra, rb]
  | .ptdbl rd ra _ => [rd, ra]
  | .ptaff _ ra _ _ => [ra]
  | .scmul rd ra _ _ _ => [rd, ra]
  | _ => []

/-- The slot whose `CVALID` a command checks: every command with a `cx` field but CTXLOAD (60_exceptions.md R246 step 3). -/
def usedSlot : Instr → Option CIdx
  | .tomont _ _ k => some k
  | .montmul _ _ _ k => some k
  | .montsqr _ _ k => some k
  | .frommont _ _ k => some k
  | .modexp _ _ _ k => some k
  | .modexpb _ _ _ _ k => some k
  | .crvload _ _ _ k => some k
  | .ptload _ _ _ k => some k
  | .ptinf _ k => some k
  | .ptadd _ _ _ k => some k
  | .ptdbl _ _ k => some k
  | .ptaff _ _ _ k => some k
  | .scmul _ _ _ k _ => some k
  | _ => none

/-- The commands that also need `KVALID` (60_exceptions.md R246 step 3). -/
def needsCurve : Instr → Bool
  | .ptload _ _ _ _ => true
  | .ptinf _ _ => true
  | .ptadd _ _ _ _ => true
  | .ptdbl _ _ _ => true
  | .ptaff _ _ _ _ => true
  | .scmul _ _ _ _ _ => true
  | _ => false

/-- The forms a command's sources must have (60_exceptions.md R246 step 5): for each, its register, FORM and CTX. A STD
source may have any CTX field. -/
def neededForms : Instr → List (VIdx × Form × CIdx)
  | .add _ ra rb => [(ra, .std, 0), (rb, .std, 0)]
  | .sub _ ra rb => [(ra, .std, 0), (rb, .std, 0)]
  | .ctxload ra _ => [(ra, .std, 0)]
  | .tomont _ ra _ => [(ra, .std, 0)]
  | .montmul _ ra rb k => [(ra, .mont, k), (rb, .mont, k)]
  | .montsqr _ ra k => [(ra, .mont, k)]
  | .frommont _ ra k => [(ra, .mont, k)]
  | .modexp _ ra rb k => [(ra, .mont, k), (rb, .std, 0)]
  | .modexpb _ ra rb rc k => [(ra, .mont, k), (rb, .std, 0), (rc, .std, 0)]
  | .crvload ra rb rc _ => [(ra, .std, 0), (rb, .std, 0), (rc, .std, 0)]
  | .ptload _ ra rb _ => [(ra, .std, 0), (rb, .std, 0)]
  | .ptadd _ ra rb k =>
    [(ra, .px, k), (ra + 1, .py, k), (ra + 2, .pz, k), (rb, .px, k), (rb + 1, .py, k), (rb + 2, .pz, k)]
  | .ptdbl _ ra k => [(ra, .px, k), (ra + 1, .py, k), (ra + 2, .pz, k)]
  | .ptaff _ ra _ k => [(ra, .px, k), (ra + 1, .py, k), (ra + 2, .pz, k)]
  | .scmul _ ra rb k _ => [(ra, .px, k), (ra + 1, .py, k), (ra + 2, .pz, k), (rb, .std, 0)]
  | _ => []

/-- The pairs that must agree in FORM and CTX: CMP, SEL, CSWAP (60_exceptions.md R246 step 5). -/
def agreeingPair : Instr → Option (VIdx × VIdx)
  | .cmp ra rb => some (ra, rb)
  | .sel _ ra rb _ => some (ra, rb)
  | .cswap ra rb _ => some (ra, rb)
  | _ => none

/-- The pairs whose second form must be no point coordinate: SEL, CSWAP (41_conditional_select.md R143). -/
def plainPair : Instr → Option (VIdx × VIdx)
  | .sel _ ra rb _ => some (ra, rb)
  | .cswap ra rb _ => some (ra, rb)
  | _ => none

/-- The lengths a command needs, as registers with the length each must have (60_exceptions.md R246 step 6). -/
def neededLens (s : State) : Instr → List (VIdx × Nat)
  | .add _ ra rb => [(rb, (s.reg ra).len)]
  | .sub _ ra rb => [(rb, (s.reg ra).len)]
  | .cmp ra rb => [(rb, (s.reg ra).len)]
  | .sel _ ra rb _ => [(rb, (s.reg ra).len)]
  | .cswap ra rb _ => [(rb, (s.reg ra).len)]
  | .tomont _ ra k => [(ra, (s.slot k).clen)]
  | .crvload ra rb _ k => [(ra, (s.slot k).clen), (rb, (s.slot k).clen)]
  | .ptload _ ra rb k => [(ra, (s.slot k).clen), (rb, (s.slot k).clen)]
  | .scmul _ _ rb k _ => [(rb, (s.slot k).ordlen)]
  | _ => []

/-- Steps 1 to 6 of 60_exceptions.md R246, kind by kind: the code of the first check that fails on the word and the tags. -/
def firstTagError (i : Instr) (s : State) : Option ErrCode :=
  if i.wellFormed = false then some .eIllegal
  else if (pointFields i).any (fun b => 13 < b.val) then some .eRegidx
  else if (match i with | .ptaff rd _ rb _ => rd == rb | _ => false) then some .eAlias
  else if (usedSlot i).any (fun k => !(s.slot k).cvalid || (needsCurve i && !(s.slot k).kvalid)) then some .eCtx
  else if (sourceRegs i).any (fun r => !(s.reg r).valid) then some .eInvalidReg
  else if
    (neededForms i).any (fun q => (s.reg q.1).form != q.2.1 || (q.2.1 != .std && (s.reg q.1).ctx != q.2.2)) ||
    (agreeingPair i).any (fun q => (s.reg q.1).form != (s.reg q.2).form || (s.reg q.1).ctx != (s.reg q.2).ctx) ||
    (plainPair i).any (fun q => (s.reg q.1).form != .std && (s.reg q.1).form != .mont)
  then some .eForm
  else if (neededLens s i).any (fun q => (s.reg q.1).len != q.2) then some .eLen
  else none

/-- The codes of steps 1 to 6 (60_exceptions.md R246). -/
def tagCodes : List ErrCode := [.eIllegal, .eRegidx, .eAlias, .eCtx, .eInvalidReg, .eForm, .eLen]

/-- The codes a command can end with: the rows of 60_exceptions.md R242. -/
def codesOf : Instr → List ErrCode
  | .nop => [.eIllegal]
  | .zeroize => [.eIllegal]
  | .add _ _ _ => [.eIllegal, .eInvalidReg, .eForm, .eLen]
  | .sub _ _ _ => [.eIllegal, .eInvalidReg, .eForm, .eLen]
  | .cmp _ _ => [.eIllegal, .eInvalidReg, .eForm, .eLen]
  | .iszero _ => [.eIllegal, .eInvalidReg]
  | .sel _ _ _ _ => [.eIllegal, .eInvalidReg, .eForm, .eLen]
  | .cswap _ _ _ => [.eIllegal, .eInvalidReg, .eForm, .eLen]
  | .ctxload _ _ => [.eIllegal, .eInvalidReg, .eForm, .eModEven]
  | .tomont _ _ _ => [.eIllegal, .eCtx, .eInvalidReg, .eForm, .eLen, .eRange]
  | .montmul _ _ _ _ => [.eIllegal, .eCtx, .eInvalidReg, .eForm]
  | .montsqr _ _ _ => [.eIllegal, .eCtx, .eInvalidReg, .eForm]
  | .frommont _ _ _ => [.eIllegal, .eCtx, .eInvalidReg, .eForm]
  | .modexp _ _ _ _ => [.eIllegal, .eCtx, .eInvalidReg, .eForm]
  | .modexpb _ _ _ _ _ => [.eIllegal, .eCtx, .eInvalidReg, .eForm, .eRng]
  | .crvload _ _ _ _ => [.eIllegal, .eCtx, .eInvalidReg, .eForm, .eLen, .eRange]
  | .ptload _ _ _ _ => [.eIllegal, .eRegidx, .eCtx, .eInvalidReg, .eForm, .eLen, .eRange, .eNotOnCurve]
  | .ptinf _ _ => [.eIllegal, .eRegidx, .eCtx]
  | .ptadd _ _ _ _ => [.eIllegal, .eRegidx, .eCtx, .eInvalidReg, .eForm]
  | .ptdbl _ _ _ => [.eIllegal, .eRegidx, .eCtx, .eInvalidReg, .eForm]
  | .ptaff _ _ _ _ => [.eIllegal, .eRegidx, .eCtx, .eInvalidReg, .eForm, .eAlias]
  | .scmul _ _ _ _ _ => [.eIllegal, .eRegidx, .eCtx, .eInvalidReg, .eForm, .eLen, .eRange, .ePointInf]

/-! Constant time. -/

/-- The tag of a register, its public part (70_reset_and_hazards.md R289). -/
def tagOf (r : VReg) : Bool × Nat × Form × CIdx := (r.valid, r.len, r.form, r.ctx)

/-- The public part of a slot (70_reset_and_hazards.md R289). -/
def slotTagOf (k : Slot) : Bool × Bool × Nat × Nat := (k.cvalid, k.kvalid, k.clen, k.ordlen)

/-- Two states agree on the public quantities of a command (70_reset_and_hazards.md R289): the configuration, the tags of
its source registers, the public part of the slot it uses. (Agreement on destinations is not even needed.) -/
def SamePublic (i : Instr) (s t : State) : Prop :=
  s.params = t.params ∧ (∀ r ∈ sourceRegs i, tagOf (s.reg r) = tagOf (t.reg r)) ∧
  (∀ k ∈ (usedSlot i).toList, slotTagOf (s.slot k) = slotTagOf (t.slot k))

/-- `MX(nb)`: the trace of MODEXP for `nb` exponent bits at modulus length `n` (70_reset_and_hazards.md R290). -/
def mxTrace (n win nb : Nat) : List TraceEvent :=
  List.replicate (2 ^ win - 2) (.mmul n) ++
  (List.replicate ((nb + win - 1) / win)
    (List.replicate win (.mmul n) ++ List.replicate (2 ^ win) (.lsel n) ++ [.mmul n])).flatten

/-- `FA`: the trace of one FADD (70_reset_and_hazards.md R290). -/
def faTrace (n : Nat) : List TraceEvent := [.ladd n, .lsub n, .lsel n]

/-- The trace of one FSUB (45_ec_point_adder.md R202). -/
def fsTrace (n : Nat) : List TraceEvent := [.lsub n, .ladd n, .lsel n]

/-- The unit operations behind the event `PADD(n)`: `m` for MM, `a` for FADD, `s` for FSUB, in the order of
45_ec_point_adder.md R203. -/
def paddUnitTrace (n : Nat) : List TraceEvent :=
  let m : List TraceEvent := [.mmul n]
  let a := faTrace n
  let f := fsTrace n
  ([m, m, m] ++ [a, a, m, f, f] ++ [a, a, m, f, f] ++ [a, a, m, f, f] ++ [m, m, a, f, a, m, a, a, m, m, a, f, m, a] ++
    [m, a, m, m, f, m, m, a]).flatten

/-- The trace of a command that ends without error (70_reset_and_hazards.md R290). -/
def successTrace (s : State) : Instr → List TraceEvent
  | .nop => []
  | .zeroize => []
  | .add _ ra _ => [.ladd (s.reg ra).len]
  | .sub _ ra _ => [.lsub (s.reg ra).len]
  | .cmp ra _ => [.lcmp (s.reg ra).len]
  | .iszero ra => [.lzero (s.reg ra).len]
  | .sel _ ra _ _ => [.lsel (s.reg ra).len]
  | .cswap ra _ _ => [.lswap (s.reg ra).len]
  | .ctxload ra _ =>
    [.n0 1, .lsub (s.reg ra).len, .lsel (s.reg ra).len] ++
    List.replicate (2 * s.params.w * (s.reg ra).len) (.mdbl (s.reg ra).len)
  | .tomont _ _ k => [.lcmp (s.slot k).clen, .mmul (s.slot k).clen]
  | .montmul _ _ _ k => [.mmul (s.slot k).clen]
  | .montsqr _ _ k => [.mmul (s.slot k).clen]
  | .frommont _ _ k => [.mmul (s.slot k).clen]
  | .modexp _ _ rb k => mxTrace (s.slot k).clen s.params.win (s.params.w * (s.reg rb).len)
  | .modexpb _ _ rb rc k =>
    let l2 := max (s.reg rb).len ((s.reg rc).len + klimbs s.params) + 1
    [.rng (s.params.blindBits / 8), .muladd (s.reg rc).len (klimbs s.params), .ladd l2] ++
    mxTrace (s.slot k).clen s.params.win (s.params.w * l2)
  | .crvload _ _ _ k =>
    let n := (s.slot k).clen
    [.lcmp n, .lcmp n, .mmul n, .mmul n] ++ faTrace n ++ faTrace n
  | .ptload _ _ _ k =>
    let n := (s.slot k).clen
    [.lcmp n, .lcmp n] ++ List.replicate 6 (.mmul n) ++ faTrace n ++ faTrace n ++ [.lcmp n]
  | .ptinf _ _ => []
  | .ptadd _ _ _ k => [.padd (s.slot k).clen]
  | .ptdbl _ _ k => [.padd (s.slot k).clen]
  | .ptaff _ _ _ k =>
    let n := (s.slot k).clen
    [.lzero n, .lsub n] ++ mxTrace n s.params.win (s.params.w * n) ++ List.replicate 4 (.mmul n)
  | .scmul _ _ _ k _ =>
    let n := (s.slot k).clen
    [.lcmp (s.slot k).ordlen, .lzero n] ++
    (List.replicate (s.params.w * (s.slot k).ordlen) [.padd n, .padd n, .lsel n, .lsel n, .lsel n]).flatten

/-- The trace of a command that ends with a code (70_reset_and_hazards.md R292). -/
def errorTrace (s : State) (i : Instr) (e : ErrCode) : List TraceEvent :=
  match e, i with
  | .eRange, .tomont _ _ k => [.lcmp (s.slot k).clen]
  | .eRange, .crvload _ _ _ k => [.lcmp (s.slot k).clen, .lcmp (s.slot k).clen]
  | .eRange, .ptload _ _ _ k => [.lcmp (s.slot k).clen, .lcmp (s.slot k).clen]
  | .eRange, .scmul _ _ _ k _ => [.lcmp (s.slot k).ordlen]
  | .eNotOnCurve, .ptload rd ra rb k => successTrace s (.ptload rd ra rb k)
  | .ePointInf, .scmul _ _ _ k _ => [.lcmp (s.slot k).ordlen, .lzero (s.slot k).clen]
  | .eRng, .modexpb _ _ _ _ _ => [.rng (s.params.blindBits / 8)]
  | _, _ => []

/-! Registers and points as the rules write them. -/

/-- The valid register `(limbs_n(x), FORM, CTX)`. -/
def regOf (n : Nat) (form : Form) (ctx : CIdx) (x : Nat) : VReg :=
  { valid := true, len := n, form := form, ctx := ctx, data := BitVec.ofNat 4096 x }

/-- The register file with the triple `(X, Y, Z)` at base `b`, tagged for slot `k` (10_state.md R25). -/
def withTriple (v : Vector VReg 16) (b : VIdx) (n : Nat) (k : CIdx) (x y z : Nat) : Vector VReg 16 :=
  let b1 : VIdx := b + 1
  let b2 : VIdx := b + 2
  ((v.set b (regOf n .px k x)).set b1 (regOf n .py k y)).set b2 (regOf n .pz k z)

/-- The point formulas of 45_ec_point_adder.md R204, over any ring: `a` and `b3 = 3b` are the curve's. -/
def addFormula {F : Type} [Add F] [Sub F] [Mul F] (a b3 : F) : F × F × F → F × F × F → F × F × F
  | (x1, y1, z1), (x2, y2, z2) =>
    let xy := x1 * y2 + x2 * y1
    let xz := x1 * z2 + x2 * z1
    let yz := y1 * z2 + y2 * z1
    let minus := y1 * y2 - a * xz - b3 * (z1 * z2)
    let plus := y1 * y2 + a * xz + b3 * (z1 * z2)
    let threeX := x1 * x2 + x1 * x2 + x1 * x2 + a * (z1 * z2)
    let mixed := a * (x1 * x2) + b3 * xz - a * a * (z1 * z2)
    (xy * minus - yz * mixed, plus * minus + threeX * mixed, yz * plus + xy * threeX)

/-- The steps of 46_ecc_scalar_multiplier.md R220 over any ring: for each bit from `i-1` down to 0 a doubling, then the
addition of `p` where the bit of `k` is 1. -/
def ladderFormula {F : Type} [Add F] [Sub F] [Mul F] (a b3 : F) (p : F × F × F) (k : Nat) :
    Nat → F × F × F → F × F × F
  | 0, acc => acc
  | i + 1, acc =>
    let d := addFormula a b3 acc acc
    ladderFormula a b3 p k i (if k.testBit i then addFormula a b3 d p else d)

end Sys2Proof.Machine
end

