-- ==== Sys2Proof/Certificates/Slice0/Obligations.lean ====
section
/-! DEFINITION. The statements for the provers. Each docstring names the rules of spec/ the statement formalises. -/

open Sys2Proof Sys2Proof.Machine

/-! Encoding. -/

/-- 30_encoding.md R91, R92, R96: decoding an encoded well-formed command gives it back, whatever its operands. -/
def Obligations.DecodeOfEncode : Prop :=
  ∀ i : Instr, i.wellFormed = true → decode (encode i) = .ok i

/-- 30_encoding.md R95, R97: a word that spells a command is the one word of that command, and the command is
well-formed, so no illegal word is taken for another command. -/
def Obligations.EncodeOfDecode : Prop :=
  ∀ (w : Word) (i : Instr), decode w = .ok i → encode i = w ∧ i.wellFormed = true

/-- 30_encoding.md R95, R96: a word spells the command named `x` exactly when it matches that row of the opcode map,
with the selector of SEL and CSWAP assigned; and no word matches two rows. -/
def Obligations.DecoderAgreesWithOpcodeMap : Prop :=
  (∀ (w : Word) (x : String),
    (∃ i, decode w = .ok i ∧ mnemonicOf i = x) ↔
    (∃ r ∈ opcodeTable, r.mnemonic = x ∧ w &&& r.mask = r.pattern ∧
      (x = "SEL" ∨ x = "CSWAP" → w.extractLsb' 0 3 ≠ 7#3))) ∧
  (∀ (w : Word), ∀ r ∈ opcodeTable, ∀ q ∈ opcodeTable,
    w &&& r.mask = r.pattern → w &&& q.mask = q.pattern → r = q)

/-- 30_encoding.md R98 and the words written out in 95_test_vectors.md and files 40 to 47: one of each unit. -/
def Obligations.WrittenWordsDecode : Prop :=
  decode 0x0F000000 = .ok .zeroize ∧
  decode 0x10312000 = .ok (.add 3 1 2) ∧
  decode 0x2031200A = .ok (.sel 3 1 2 0b1010#4) ∧
  decode 0x32312040 = .ok (.montmul 3 1 2 1) ∧
  decode 0x4166CA40 = .ok (.modexpb 6 6 12 10 1) ∧
  decode 0x55C9D040 = .ok (.ptaff 12 9 13 1) ∧
  decode 0x60963041 = .ok (.scmul 9 6 3 1 true) ∧
  decode 0x20312007 = .error .reservedSelector ∧
  decode 0x10123100 = .error .unusedField ∧
  decode 0 = .error .unassignedOp

/-! The step. -/

/-- 10_state.md R30; 20_memory.md R73, R60: what one step is, by the head of the list of events. At the sequencer's turn,
by an event or because nothing else is pending, it is the meaning of the command in `CMD` where one is accepted, and
changes nothing where none is. Where the next event is a host access, it is that access at its offset from the base, the
block's answer among its effects; outside the window it answers `buserror` (R61, R72) and changes nothing else. The list
of events and the turn are the model's (log 1, log 2), and so is the answer below the base (log 7). -/
def Obligations.StepRunsDecodedCommand : Prop :=
  ∀ (s : State) (rest : List Event),
    (∀ i : Instr, s.busy = true → decode s.cmd = .ok i →
      (s.events = .sequencer :: rest → step s = exec i { s with events := rest }) ∧
      (s.events = [] → step s = exec i s)) ∧
    (s.busy = false →
      (s.events = .sequencer :: rest → step s = .next { s with events := rest }) ∧
      (s.events = [] → step s = .next s)) ∧
    (∀ (off bytes : Nat) (d : Word),
      (s.events = .access (.read (s.params.base + off) bytes) :: rest →
        step s = .next (hostAccess { s with events := rest } (.read off bytes))) ∧
      (s.events = .access (.write (s.params.base + off) bytes d) :: rest →
        step s = .next (hostAccess { s with events := rest } (.write off bytes d)))) ∧
    (∀ (addr bytes : Nat) (d : Word), addr < s.params.base ∨ s.params.base + 0x4000 ≤ addr →
      s.events = .access (.read addr bytes) :: rest ∨ s.events = .access (.write addr bytes d) :: rest →
      step s = .next { s with events := rest, answers := .buserror :: s.answers })

/-- 30_encoding.md R97: an accepted word that spells no command completes with E_ILLEGAL, which sets FATAL; nothing else
changes. The sequencer's turn comes by the next event or because nothing else is pending, which is the model's (log 2). -/
def Obligations.IllegalWordCompletesWithError : Prop :=
  ∀ (s : State) (r : Reject) (rest : List Event), s.busy = true → decode s.cmd = .error r →
    (s.events = .sequencer :: rest → step s = .next { s with
      events := rest, err := some .eIllegal, fatal := true, busy := false, done := true, trace := [] }) ∧
    (s.events = [] → step s = .next { s with
      err := some .eIllegal, fatal := true, busy := false, done := true, trace := [] })

/-- 10_state.md R30, R41: in the condition IDLE any word written to `CMD` is accepted (BUSY 1, DONE 0), and while
BUSY, FATAL or an error holds the write is refused and only the answer is recorded. The record of answers is the
model's (log 1). -/
def Obligations.CommandAcceptance : Prop :=
  ∀ (s : State) (d : Word),
    (s.busy = false → s.fatal = false → s.err = none →
      hostAccess s (.write 0x14 4 d) =
        { s with cmd := d, busy := true, done := false, answers := .taken :: s.answers }) ∧
    (s.busy = true ∨ s.fatal = true ∨ s.err ≠ none →
      hostAccess s (.write 0x14 4 d) = { s with answers := .buserror :: s.answers })

/-- 70_reset_and_hazards.md R285 and 93_implementation_defined.md: every word, access and operand value has a stated
outcome, so every step of every state gives a next state; and a step that is the sequencer's turn leaves no command
unfinished. That a completion is one step is the model's choice (log 2). -/
def Obligations.EveryStepGivesNextState : Prop :=
  (∀ s : State, ∃ t, step s = .next t) ∧
  (∀ (i : Instr) (s : State), ∃ t, exec i s = .next t ∧ t.busy = false ∧ t.done = true)

/-! The limb functions. -/

/-- 40_limb_adder_subtractor.md R122. -/
def Obligations.AdditionLaw : Prop :=
  ∀ (w : Nat) (a b : Limbs w), 1 ≤ w → a.length = b.length →
    val (addN a b).1 + (addN a b).2.toNat * 2 ^ (w * a.length) = val a + val b ∧
    val (addN a b).1 < 2 ^ (w * a.length) ∧ (addN a b).1.length = a.length

/-- 40_limb_adder_subtractor.md R123. -/
def Obligations.SubtractionLaw : Prop :=
  ∀ (w : Nat) (a b : Limbs w), 1 ≤ w → a.length = b.length →
    (val (subN a b).1 : Int) - (subN a b).2.toNat * 2 ^ (w * a.length) = (val a : Int) - val b ∧
    ((subN a b).2 = true ↔ val a < val b) ∧ (subN a b).1.length = a.length ∧
    ((subN a b).2 = true → val (subN a b).1 + val b = val a + 2 ^ (w * a.length))

/-- 40_limb_adder_subtractor.md R124, R125. -/
def Obligations.ZeroTestAndComparisonLaw : Prop :=
  ∀ (w : Nat) (a b : Limbs w), 1 ≤ w → a.length = b.length →
    (isZeroN a = true ↔ val a = 0) ∧
    ((cmpN a b).lt = true ↔ val a < val b) ∧ ((cmpN a b).eq = true ↔ val a = val b) ∧
    ((cmpN a b).gt = true ↔ val b < val a)

/-- 41_conditional_select.md R141, R145: the masks select and exchange whole vectors. -/
def Obligations.SelectAndSwapLaw : Prop :=
  ∀ (w : Nat) (a b : Limbs w), a.length = b.length →
    selectN true a b = a ∧ selectN false a b = b ∧ cswapN true a b = (b, a) ∧ cswapN false a b = (a, b)

/-- 41_conditional_select.md R142: the bit of `FLAGS` with the number `fn[2:0]`, 0 for number 6, inverted by `fn[3]`. -/
def Obligations.SelectedFlag : Prop :=
  ∀ (f : Flags) (cond : BitVec 4), condAssigned cond = true →
    flagVal f cond = (((flagsWord f).getLsbD (cond.toNat % 8)) ^^ decide (8 ≤ cond.toNat))

/-- 42_montgomery_multiplier.md R152: for an odd limb, `N0INV` is the unique limb with `m0 * n0 + 1` a multiple of `2^W`. -/
def Obligations.NegatedInverseLaw : Prop :=
  ∀ (w : Nat) (m0 : BitVec w), 1 ≤ w → m0.toNat % 2 = 1 →
    (m0.toNat * (n0inv m0).toNat + 1) % 2 ^ w = 0 ∧
    (∀ x : BitVec w, (m0.toNat * x.toNat + 1) % 2 ^ w = 0 → x = n0inv m0)

/-- 42_montgomery_multiplier.md R154: the value of `MONTMUL`, its range, and the accumulator before the final
subtraction. -/
def Obligations.MontgomeryProductLaw : Prop :=
  ∀ (w : Nat) (m a b : Limbs w), 1 ≤ w → val m % 2 = 1 → a.length = m.length → b.length = m.length →
    val a * val b < val m * 2 ^ (w * m.length) →
    let n0 := n0inv (m.headD 0)
    let t := montLoop m n0 a b { lo := List.replicate m.length 0, hi := 0 }
    let r := montmul m n0 a b
    val r < val m ∧ r.length = m.length ∧
    val r * 2 ^ (w * m.length) % val m = val a * val b % val m ∧
    (∃ q : Nat, (val t.lo + 2 ^ (w * m.length) * t.hi.toNat) * 2 ^ (w * m.length) = val a * val b + q * val m) ∧
    val t.lo + 2 ^ (w * m.length) * t.hi.toNat < 2 * val m ∧ t.hi.toNat ≤ 1

/-- 42_montgomery_multiplier.md R155: the constants of a context made from an odd modulus, and their trace. -/
def Obligations.ContextConstants : Prop :=
  ∀ (w : Nat) (m : Limbs w), 1 ≤ w → val m % 2 = 1 →
    let k := mkctx m
    k.val.m = m ∧ k.val.one.length = m.length ∧ k.val.rr.length = m.length ∧
    val k.val.one = 2 ^ (w * m.length) % val m ∧ val k.val.rr = (2 ^ (w * m.length)) ^ 2 % val m ∧
    k.val.n0 = n0inv (m.headD 0) ∧
    k.trace = [.n0 1, .lsub m.length, .lsel m.length] ++ List.replicate (2 * w * m.length) (.mdbl m.length)

/-- 42_montgomery_multiplier.md R162: the round trip, and multiplicative consistency. -/
def Obligations.MontgomeryRoundTrip : Prop :=
  ∀ (w : Nat) (m a b : Limbs w), 1 ≤ w → val m % 2 = 1 → a.length = m.length → b.length = m.length →
    val a < val m → val b < val m →
    let k := (mkctx m).val
    (frommontT k (tomontT k a).val).val = a ∧
    val (frommontT k (mmT k (tomontT k a).val (tomontT k b).val).val).val = val a * val b % val m

/-- 43_modexp_engine.md R172: the value of `MODEXP` for every base, exponent, window and bit count; `x^0 = 1`. The
spec marks R172 as its own inference, from R171 and R154. -/
def Obligations.ExponentiationLaw : Prop :=
  ∀ (w win x e nb : Nat) (m base : Limbs w), 1 ≤ w → 1 ≤ win → val m % 2 = 1 → x < val m → e < 2 ^ nb →
    base.length = m.length → val base = x * 2 ^ (w * m.length) % val m →
    let r := (modexpT (mkctx m).val win base e nb).val
    r.length = m.length ∧ val r = x ^ e % val m * 2 ^ (w * m.length) % val m

/-- 43_modexp_engine.md R177: the number of multiplications and selects depends on the exponent's bit count and the
window only. -/
def Obligations.ExponentiationOperationCount : Prop :=
  ∀ (w win e nb : Nat) (k : Ctx w) (base : Limbs w), 1 ≤ win →
    base.length = k.m.length → k.one.length = k.m.length →
    let t := (modexpT k win base e nb).trace
    let nwin := (nb + win - 1) / win
    t.count (.mmul k.m.length) = (2 ^ win - 2) + nwin * (win + 1) ∧
    t.countP (fun x => match x with | .lsel _ => true | _ => false) = nwin * 2 ^ win ∧
    (1 ≤ k.m.length → t = mxTrace k.m.length win nb)

/-- 45_ec_point_adder.md R202: field addition and subtraction. The spec marks R202 as its own inference, from R122,
R123 and R141. -/
def Obligations.FieldAddSubLaw : Prop :=
  ∀ (w : Nat) (k : Ctx w) (x y : Limbs w), 1 ≤ w → x.length = k.m.length → y.length = k.m.length →
    val x < val k.m → val y < val k.m →
    val (faddT k x y).val = (val x + val y) % val k.m ∧ (faddT k x y).val.length = k.m.length ∧
    val (fsubT k x y).val = (val x + val k.m - val y) % val k.m ∧ (fsubT k x y).val.length = k.m.length ∧
    (faddT k x y).trace = faTrace k.m.length ∧ (fsubT k x y).trace = fsTrace k.m.length

/-- 45_ec_point_adder.md R204: on Montgomery-form coordinates of any logical values, `PADD` gives the Montgomery forms
of the complete addition formulas, on or off the curve. -/
def Obligations.PointAdditionLaw : Prop :=
  ∀ (w : Nat) (k : Ctx w) (p q : Point w) (a b x1 y1 z1 x2 y2 z2 : Nat), 1 ≤ w → val k.m % 2 = 1 →
    k.n0 = n0inv (k.m.headD 0) →
    let n := k.m.length
    let mont := fun v : Nat => limbsOf w n (v * 2 ^ (w * n) % val k.m)
    k.a = mont a → k.b3 = mont (3 * b) → p = ⟨mont x1, mont y1, mont z1⟩ → q = ⟨mont x2, mont y2, mont z2⟩ →
    ∃ x3 y3 z3 : Nat, (paddT k p q).val = ⟨mont x3, mont y3, mont z3⟩ ∧
      ((x3 : ZMod (val k.m)), (y3 : ZMod (val k.m)), (z3 : ZMod (val k.m))) =
        addFormula (a : ZMod (val k.m)) (3 * b) (x1, y1, z1) (x2, y2, z2)

/-- 45_ec_point_adder.md R203, R212; 70_reset_and_hazards.md R288: `PADD` performs one sequence of unit operations,
17 MM, 14 FADD, 9 FSUB, whatever the points. -/
def Obligations.PointAdditionOneSequence : Prop :=
  ∀ (w : Nat) (k : Ctx w) (p q : Point w),
    (∀ c ∈ [p.x, p.y, p.z, q.x, q.y, q.z, k.a, k.b3], c.length = k.m.length) → 1 ≤ k.m.length →
    (paddT k p q).trace = paddUnitTrace k.m.length ∧
    (paddT k p q).trace.count (.mmul k.m.length) = 17 ∧ (paddT k p q).trace.length = 17 + 14 * 3 + 9 * 3

/-! Results of the commands. In each, the whole next state is given, so everything not named is unchanged. -/

/-- 47_system_commands.md R230, R231. Here and below, that the trace is kept in the state is the model's choice (log
5). -/
def Obligations.SystemCommandsComplete : Prop :=
  ∀ s : State,
    exec .nop s = .next { s with busy := false, done := true, trace := [] } ∧
    exec .zeroize s = .next { s with
      v := Vector.replicate 16 { valid := false, len := 0, form := .std, ctx := 0, data := 0 }
      c := Vector.replicate 4 Slot.empty
      flags := { c := false, z := false, lt := false, eq := false, gt := false, inf := false }
      busy := false, done := true, trace := [] }

/-- 40_limb_adder_subtractor.md R126, R127: on two STD registers of one length, the sum modulo `2^(W*n)` and its carry,
the difference modulo `2^(W*n)` and its borrow. -/
def Obligations.AddAndSubResult : Prop :=
  ∀ (s : State) (rd ra rb : VIdx), Inv s → (s.reg ra).valid = true → (s.reg rb).valid = true →
    (s.reg ra).form = .std → (s.reg rb).form = .std → (s.reg ra).len = (s.reg rb).len →
    let n := (s.reg ra).len
    let x := (s.reg ra).data.toNat
    let y := (s.reg rb).data.toNat
    exec (.add rd ra rb) s = .next { s with
      v := s.v.set rd (regOf n .std 0 ((x + y) % 2 ^ (s.params.w * n)))
      flags := { s.flags with c := decide (2 ^ (s.params.w * n) ≤ x + y) }
      busy := false, done := true, trace := successTrace s (.add rd ra rb) } ∧
    exec (.sub rd ra rb) s = .next { s with
      v := s.v.set rd (regOf n .std 0 ((x + 2 ^ (s.params.w * n) - y) % 2 ^ (s.params.w * n)))
      flags := { s.flags with c := decide (x < y) }
      busy := false, done := true, trace := successTrace s (.sub rd ra rb) }

/-- 40_limb_adder_subtractor.md R128, R129; 60_exceptions.md R248: comparison and zero test write their flags and no
register, and a mismatch is no error. -/
def Obligations.CompareAndZeroResult : Prop :=
  ∀ (s : State) (ra rb : VIdx), Inv s → (s.reg ra).valid = true →
    exec (.iszero ra) s = .next { s with
      flags := { s.flags with z := decide ((s.reg ra).data = 0) }
      busy := false, done := true, trace := successTrace s (.iszero ra) } ∧
    ((s.reg rb).valid = true → (s.reg ra).form = (s.reg rb).form → (s.reg ra).ctx = (s.reg rb).ctx →
      (s.reg ra).len = (s.reg rb).len →
      exec (.cmp ra rb) s = .next { s with
        flags := { s.flags with
          lt := decide ((s.reg ra).data.toNat < (s.reg rb).data.toNat)
          eq := decide ((s.reg ra).data = (s.reg rb).data)
          gt := decide ((s.reg rb).data.toNat < (s.reg ra).data.toNat) }
        busy := false, done := true, trace := successTrace s (.cmp ra rb) })

/-- 41_conditional_select.md R143, R144: on two registers of one tag, STD or MONT, SEL copies one of them whole and
CSWAP exchanges them or leaves them. -/
def Obligations.SelectAndSwapResult : Prop :=
  ∀ (s : State) (rd ra rb : VIdx) (cond : BitVec 4), Inv s → condAssigned cond = true →
    (s.reg ra).valid = true → (s.reg rb).valid = true → (s.reg ra).form = .std ∨ (s.reg ra).form = .mont →
    (s.reg ra).form = (s.reg rb).form → (s.reg ra).ctx = (s.reg rb).ctx → (s.reg ra).len = (s.reg rb).len →
    let f := flagVal s.flags cond
    exec (.sel rd ra rb cond) s = .next { s with
      v := s.v.set rd (if f then s.reg ra else s.reg rb)
      busy := false, done := true, trace := successTrace s (.sel rd ra rb cond) } ∧
    exec (.cswap ra rb cond) s = .next { s with
      v := if f then (s.v.set ra (s.reg rb)).set rb (s.reg ra) else s.v
      busy := false, done := true, trace := successTrace s (.cswap ra rb cond) }

/-- 42_montgomery_multiplier.md R157: an odd STD register becomes the slot's context; every value of the slot is
destroyed and its curve dropped; an even one is E_MOD_EVEN and changes nothing else. -/
def Obligations.ContextLoadResult : Prop :=
  ∀ (s : State) (ra : VIdx) (cx : CIdx), Inv s → (s.reg ra).valid = true → (s.reg ra).form = .std →
    let n := (s.reg ra).len
    let m := (s.reg ra).data.toNat
    (m % 2 = 1 → ∃ n0 : Nat, n0 < 2 ^ s.params.w ∧ (m * n0 + 1) % 2 ^ s.params.w = 0 ∧
      exec (.ctxload ra cx) s = .next { s with
        v := s.v.map fun r => if r.valid = true ∧ r.form ≠ .std ∧ r.ctx = cx then VReg.cleared else r
        c := s.c.set cx { Slot.empty with
          cvalid := true, clen := n, m := BitVec.ofNat 4096 m
          one := BitVec.ofNat 4096 (radix s.params n % m)
          rr := BitVec.ofNat 4096 (radix s.params n ^ 2 % m)
          n0 := BitVec.ofNat 64 n0 }
        busy := false, done := true, trace := successTrace s (.ctxload ra cx) }) ∧
    (m % 2 = 0 → exec (.ctxload ra cx) s = .next { s with
      err := some .eModEven, fatal := true, busy := false, done := true, trace := [] })

/-- 42_montgomery_multiplier.md R158: below the modulus, `a*R mod m` in Montgomery form; otherwise E_RANGE. -/
def Obligations.ToMontgomeryResult : Prop :=
  ∀ (s : State) (rd ra : VIdx) (cx : CIdx), Inv s → (s.slot cx).cvalid = true → (s.reg ra).valid = true →
    (s.reg ra).form = .std → (s.reg ra).len = (s.slot cx).clen →
    let n := (s.slot cx).clen
    let m := (s.slot cx).m.toNat
    let x := (s.reg ra).data.toNat
    (x < m → exec (.tomont rd ra cx) s = .next { s with
      v := s.v.set rd (regOf n .mont cx (x * radix s.params n % m))
      busy := false, done := true, trace := successTrace s (.tomont rd ra cx) }) ∧
    (m ≤ x → exec (.tomont rd ra cx) s = .next { s with
      err := some .eRange, busy := false, done := true, trace := [.lcmp n] })

/-- 42_montgomery_multiplier.md R159, R160: the product of two Montgomery-form values of the slot, `a*b*R^-1 mod m`; the
square is the product of the value with itself. -/
def Obligations.MontgomeryProductResult : Prop :=
  ∀ (s : State) (rd ra rb : VIdx) (cx : CIdx), Inv s → (s.slot cx).cvalid = true →
    (s.reg ra).valid = true → (s.reg ra).form = .mont → (s.reg ra).ctx = cx →
    let n := (s.slot cx).clen
    let m := (s.slot cx).m.toNat
    let x := (s.reg ra).data.toNat
    let y := (s.reg rb).data.toNat
    ((s.reg rb).valid = true → (s.reg rb).form = .mont → (s.reg rb).ctx = cx →
      ∃ r : Nat, r < m ∧ r * radix s.params n % m = x * y % m ∧
        exec (.montmul rd ra rb cx) s = .next { s with
          v := s.v.set rd (regOf n .mont cx r)
          busy := false, done := true, trace := successTrace s (.montmul rd ra rb cx) }) ∧
    (∃ r : Nat, r < m ∧ r * radix s.params n % m = x * x % m ∧
      exec (.montsqr rd ra cx) s = .next { s with
        v := s.v.set rd (regOf n .mont cx r)
        busy := false, done := true, trace := successTrace s (.montsqr rd ra cx) })

/-- 42_montgomery_multiplier.md R161: a Montgomery-form value leaves as `a*R^-1 mod m` in standard form. -/
def Obligations.FromMontgomeryResult : Prop :=
  ∀ (s : State) (rd ra : VIdx) (cx : CIdx), Inv s → (s.slot cx).cvalid = true →
    (s.reg ra).valid = true → (s.reg ra).form = .mont → (s.reg ra).ctx = cx →
    let n := (s.slot cx).clen
    let m := (s.slot cx).m.toNat
    ∃ r : Nat, r < m ∧ r * radix s.params n % m = (s.reg ra).data.toNat % m ∧
      exec (.frommont rd ra cx) s = .next { s with
        v := s.v.set rd (regOf n .std 0 r)
        busy := false, done := true, trace := successTrace s (.frommont rd ra cx) }

/-- 43_modexp_engine.md R173: the power of the base to the exponent register, in Montgomery form. -/
def Obligations.ExponentiationResult : Prop :=
  ∀ (s : State) (rd ra rb : VIdx) (cx : CIdx) (x : Nat), Inv s → (s.slot cx).cvalid = true →
    (s.reg ra).valid = true → (s.reg ra).form = .mont → (s.reg ra).ctx = cx →
    (s.reg rb).valid = true → (s.reg rb).form = .std →
    let n := (s.slot cx).clen
    let m := (s.slot cx).m.toNat
    (s.reg ra).data.toNat = x * radix s.params n % m →
    exec (.modexp rd ra rb cx) s = .next { s with
      v := s.v.set rd (regOf n .mont cx (x ^ (s.reg rb).data.toNat % m * radix s.params n % m))
      busy := false, done := true, trace := successTrace s (.modexp rd ra rb cx) }

/-- 43_modexp_engine.md R174, R175; 60_exceptions.md R262, R263: with the bytes of a draw, the exponent is `E + k *
lambda`; where the port answers failure or nothing, E_RNG and no result. The draw is the first scripted answer or the
free value of this request; both clauses hold for every answer. The script and the free value are the model's (log
3). -/
def Obligations.BlindedExponentiationResult : Prop :=
  ∀ (s : State) (rd ra rb rc : VIdx) (cx : CIdx) (x : Nat), Inv s → (s.slot cx).cvalid = true →
    (s.reg ra).valid = true → (s.reg ra).form = .mont → (s.reg ra).ctx = cx →
    (s.reg rb).valid = true → (s.reg rb).form = .std → (s.reg rc).valid = true → (s.reg rc).form = .std →
    let n := (s.slot cx).clen
    let m := (s.slot cx).m.toNat
    (s.reg ra).data.toNat = x * radix s.params n % m →
    let answer := s.rng.headD (Config.rngAnswer s.rngCount)
    (∀ bytes : List Byte, answer = .ok bytes → bytes.length = s.params.blindBits / 8 →
      let k := Nat.ofDigits 256 (bytes.map BitVec.toNat)
      exec (.modexpb rd ra rb rc cx) s = .next { s with
        v := s.v.set rd (regOf n .mont cx
          (x ^ ((s.reg rb).data.toNat + k * (s.reg rc).data.toNat) % m * radix s.params n % m))
        rng := s.rng.tail, rngCount := s.rngCount + 1
        busy := false, done := true, trace := successTrace s (.modexpb rd ra rb rc cx) }) ∧
    (answer = .fail ∨ answer = .silent →
      exec (.modexpb rd ra rb rc cx) s = .next { s with
        err := some .eRng, rng := s.rng.tail, rngCount := s.rngCount + 1
        busy := false, done := true, trace := [.rng (s.params.blindBits / 8)] })

/-- 45_ec_point_adder.md R206: the curve constants in Montgomery form, the order and its length; the slot's points are
destroyed; a coefficient not below the modulus is E_RANGE. -/
def Obligations.CurveLoadResult : Prop :=
  ∀ (s : State) (ra rb rc : VIdx) (cx : CIdx), Inv s → (s.slot cx).cvalid = true →
    (s.reg ra).valid = true → (s.reg rb).valid = true → (s.reg rc).valid = true →
    (s.reg ra).form = .std → (s.reg rb).form = .std → (s.reg rc).form = .std →
    (s.reg ra).len = (s.slot cx).clen → (s.reg rb).len = (s.slot cx).clen →
    let n := (s.slot cx).clen
    let m := (s.slot cx).m.toNat
    let a := (s.reg ra).data.toNat
    let b := (s.reg rb).data.toNat
    (a < m ∧ b < m → exec (.crvload ra rb rc cx) s = .next { s with
      v := s.v.map fun r =>
        if r.valid = true ∧ (r.form = .px ∨ r.form = .py ∨ r.form = .pz) ∧ r.ctx = cx then VReg.cleared else r
      c := s.c.set cx { s.slot cx with
        kvalid := true
        a := BitVec.ofNat 4096 (a * radix s.params n % m)
        b := BitVec.ofNat 4096 (b * radix s.params n % m)
        b3 := BitVec.ofNat 4096 (3 * b * radix s.params n % m)
        ord := (s.reg rc).data, ordlen := (s.reg rc).len }
      busy := false, done := true, trace := successTrace s (.crvload ra rb rc cx) }) ∧
    (m ≤ a ∨ m ≤ b → exec (.crvload ra rb rc cx) s = .next { s with
      err := some .eRange, busy := false, done := true, trace := [.lcmp n, .lcmp n] })

/-- 45_ec_point_adder.md R207: affine coordinates on the curve become the triple `(x, y, 1)` in Montgomery form; out of
range is E_RANGE, off the curve E_NOT_ON_CURVE. `a` and `b` are the logical coefficients of the slot. -/
def Obligations.PointLoadResult : Prop :=
  ∀ (s : State) (rd ra rb : VIdx) (cx : CIdx) (a b : Nat), Inv s → rd.val ≤ 13 →
    (s.slot cx).cvalid = true → (s.slot cx).kvalid = true → (s.reg ra).valid = true → (s.reg rb).valid = true →
    (s.reg ra).form = .std → (s.reg rb).form = .std →
    (s.reg ra).len = (s.slot cx).clen → (s.reg rb).len = (s.slot cx).clen →
    let n := (s.slot cx).clen
    let m := (s.slot cx).m.toNat
    let x := (s.reg ra).data.toNat
    let y := (s.reg rb).data.toNat
    (s.slot cx).a.toNat = a * radix s.params n % m → (s.slot cx).b.toNat = b * radix s.params n % m →
    (x < m → y < m → y ^ 2 % m = (x ^ 3 + a * x + b) % m →
      exec (.ptload rd ra rb cx) s = .next { s with
        v := withTriple s.v rd n cx (x * radix s.params n % m) (y * radix s.params n % m) (radix s.params n % m)
        busy := false, done := true, trace := successTrace s (.ptload rd ra rb cx) }) ∧
    (x < m → y < m → y ^ 2 % m ≠ (x ^ 3 + a * x + b) % m →
      exec (.ptload rd ra rb cx) s = .next { s with
        err := some .eNotOnCurve, busy := false, done := true, trace := successTrace s (.ptload rd ra rb cx) }) ∧
    (m ≤ x ∨ m ≤ y → exec (.ptload rd ra rb cx) s = .next { s with
      err := some .eRange, busy := false, done := true, trace := [.lcmp n, .lcmp n] })

/-- 45_ec_point_adder.md R208: the point at infinity is written as `(0, ONE, 0)`. -/
def Obligations.PointAtInfinityResult : Prop :=
  ∀ (s : State) (rd : VIdx) (cx : CIdx), Inv s → rd.val ≤ 13 →
    (s.slot cx).cvalid = true → (s.slot cx).kvalid = true →
    exec (.ptinf rd cx) s = .next { s with
      v := withTriple s.v rd (s.slot cx).clen cx 0 (s.slot cx).one.toNat 0
      busy := false, done := true, trace := [] }

/-- 45_ec_point_adder.md R209, R210: PTADD gives the formulas of R204 on the logical coordinates, PTDBL the same
formulas on the point with itself. The `x1 .. z2` are the logical coordinates of the sources. -/
def Obligations.PointAdditionResult : Prop :=
  ∀ (s : State) (rd ra rb : VIdx) (cx : CIdx) (a b x1 y1 z1 x2 y2 z2 : Nat), Inv s →
    rd.val ≤ 13 → ra.val ≤ 13 → rb.val ≤ 13 → (s.slot cx).cvalid = true → (s.slot cx).kvalid = true →
    tripleValid s ra = true → tripleTagged s ra cx = true → tripleValid s rb = true → tripleTagged s rb cx = true →
    let n := (s.slot cx).clen
    let m := (s.slot cx).m.toNat
    let mont := fun v : Nat => v * radix s.params n % m
    (s.slot cx).a.toNat = mont a → (s.slot cx).b.toNat = mont b →
    (s.reg ra).data.toNat = mont x1 → (s.reg (ra + 1)).data.toNat = mont y1 → (s.reg (ra + 2)).data.toNat = mont z1 →
    (s.reg rb).data.toNat = mont x2 → (s.reg (rb + 1)).data.toNat = mont y2 → (s.reg (rb + 2)).data.toNat = mont z2 →
    (∃ x3 y3 z3 : Nat,
      ((x3 : ZMod m), (y3 : ZMod m), (z3 : ZMod m)) = addFormula (a : ZMod m) (3 * b) (x1, y1, z1) (x2, y2, z2) ∧
      exec (.ptadd rd ra rb cx) s = .next { s with
        v := withTriple s.v rd n cx (mont x3) (mont y3) (mont z3)
        busy := false, done := true, trace := successTrace s (.ptadd rd ra rb cx) }) ∧
    (∃ x3 y3 z3 : Nat,
      ((x3 : ZMod m), (y3 : ZMod m), (z3 : ZMod m)) = addFormula (a : ZMod m) (3 * b) (x1, y1, z1) (x1, y1, z1) ∧
      exec (.ptdbl rd ra cx) s = .next { s with
        v := withTriple s.v rd n cx (mont x3) (mont y3) (mont z3)
        busy := false, done := true, trace := successTrace s (.ptdbl rd ra cx) })

/-- 45_ec_point_adder.md R211: `x = X * Z^(p-2)` and `y = Y * Z^(p-2)` in standard form, and INF exactly for `Z = 0`;
`rd = rb` is E_ALIAS. -/
def Obligations.AffineResult : Prop :=
  ∀ (s : State) (rd ra rb : VIdx) (cx : CIdx) (x y z : Nat), Inv s → ra.val ≤ 13 →
    (rd = rb → exec (.ptaff rd ra rb cx) s = .next { s with
      err := some .eAlias, fatal := true, busy := false, done := true, trace := [] }) ∧
    (rd ≠ rb → (s.slot cx).cvalid = true → (s.slot cx).kvalid = true →
      tripleValid s ra = true → tripleTagged s ra cx = true →
      let n := (s.slot cx).clen
      let m := (s.slot cx).m.toNat
      let mont := fun v : Nat => v * radix s.params n % m
      z < m → (s.reg ra).data.toNat = mont x → (s.reg (ra + 1)).data.toNat = mont y →
      (s.reg (ra + 2)).data.toNat = mont z →
      exec (.ptaff rd ra rb cx) s = .next { s with
        v := (s.v.set rd (regOf n .std 0 (x * z ^ (m - 2) % m))).set rb (regOf n .std 0 (y * z ^ (m - 2) % m))
        flags := { s.flags with inf := decide (z = 0) }
        busy := false, done := true, trace := successTrace s (.ptaff rd ra rb cx) })

/-- 46_ecc_scalar_multiplier.md R220, R222: the ladder of doublings and selected additions over `W * ORDLEN` bits, from
the point at infinity; a scalar not below the order is E_RANGE; with NOINF a source with `Z = 0` is E_POINT_INF. -/
def Obligations.ScalarMultiplicationResult : Prop :=
  ∀ (s : State) (rd ra rb : VIdx) (cx : CIdx) (noinf : Bool) (a b x y z : Nat), Inv s →
    rd.val ≤ 13 → ra.val ≤ 13 → (s.slot cx).cvalid = true → (s.slot cx).kvalid = true →
    tripleValid s ra = true → tripleTagged s ra cx = true →
    (s.reg rb).valid = true → (s.reg rb).form = .std → (s.reg rb).len = (s.slot cx).ordlen →
    let n := (s.slot cx).clen
    let m := (s.slot cx).m.toNat
    let k := (s.reg rb).data.toNat
    let mont := fun v : Nat => v * radix s.params n % m
    (s.slot cx).a.toNat = mont a → (s.slot cx).b.toNat = mont b →
    (s.reg ra).data.toNat = mont x → (s.reg (ra + 1)).data.toNat = mont y → (s.reg (ra + 2)).data.toNat = mont z →
    (k < (s.slot cx).ord.toNat → ¬ (noinf = true ∧ (s.reg (ra + 2)).data = 0) →
      ∃ x3 y3 z3 : Nat,
        ((x3 : ZMod m), (y3 : ZMod m), (z3 : ZMod m)) =
          ladderFormula (a : ZMod m) (3 * b) (x, y, z) k (s.params.w * (s.slot cx).ordlen) (0, 1, 0) ∧
        exec (.scmul rd ra rb cx noinf) s = .next { s with
          v := withTriple s.v rd n cx (mont x3) (mont y3) (mont z3)
          busy := false, done := true, trace := successTrace s (.scmul rd ra rb cx noinf) }) ∧
    ((s.slot cx).ord.toNat ≤ k → exec (.scmul rd ra rb cx noinf) s = .next { s with
      err := some .eRange, busy := false, done := true, trace := [.lcmp (s.slot cx).ordlen] }) ∧
    (k < (s.slot cx).ord.toNat → noinf = true → (s.reg (ra + 2)).data = 0 →
      exec (.scmul rd ra rb cx noinf) s = .next { s with
        err := some .ePointInf, busy := false, done := true, trace := [.lcmp (s.slot cx).ordlen, .lzero n] })

/-! Errors. -/

/-- 60_exceptions.md R243, R249: a command that ends in error writes `ERR`, sets `FATAL` for class 1, clears BUSY and
sets DONE; no register, tag, flag, slot or enable changes. (The randomness port's own counters are the model's, log 3.) -/
def Obligations.ErrorChangesNothingElse : Prop :=
  ∀ (i : Instr) (s t : State) (e : ErrCode), s.err = none → exec i s = .next t → t.err = some e →
    t = { s with
      err := some e, fatal := s.fatal || decide (classNumber (errClass e) = 1), busy := false, done := true
      trace := t.trace, rng := t.rng, rngCount := t.rngCount } ∧
    (e ≠ .eRng → t.rng = s.rng ∧ t.rngCount = s.rngCount)

/-- 60_exceptions.md R241; 10_state.md R42: what `ERR` reads for each code, and 0 for none. -/
def Obligations.ErrorWords : Prop :=
  errWord none = 0 ∧
  [ErrCode.eIllegal, .eRegidx, .eCtx, .eInvalidReg, .eForm, .eLen, .eModEven, .eAlias].map (errWord ∘ some) =
    [0x101, 0x102, 0x103, 0x104, 0x105, 0x106, 0x107, 0x108] ∧
  [ErrCode.eRange, .eNotOnCurve, .ePointInf, .eRng].map (errWord ∘ some) = [0x210, 0x211, 0x212, 0x320] ∧
  (∀ e f : Option ErrCode, errWord e = errWord f → e = f)

/-- 60_exceptions.md R242: a command ends with no code other than those of its row. -/
def Obligations.CodesOfEachCommand : Prop :=
  ∀ (i : Instr) (s t : State) (e : ErrCode), s.err = none → exec i s = .next t → t.err = some e → e ∈ codesOf i

/-- 60_exceptions.md R246, steps 1 to 6: the checks on the word and the tags, kind by kind in the table's order, decide
which of their codes a command ends with, if any. -/
def Obligations.TagChecksInOrder : Prop :=
  ∀ (i : Instr) (s t : State), s.err = none → exec i s = .next t →
    (∀ e, firstTagError i s = some e → t.err = some e) ∧
    (firstTagError i s = none → ∀ e, t.err = some e → e ∉ tagCodes)

/-- 60_exceptions.md R244, R245, R252; 10_state.md R42: a pending recoverable error is cleared by a write of any
value to `ERR`, and until then `CMD` refuses; in FATAL that write is refused too. The record of answers is the
model's (log 1). -/
def Obligations.ReturnFromError : Prop :=
  ∀ (s : State) (d e : Word), s.busy = false →
    (s.fatal = false → hostAccess s (.write 0x18 4 d) = { s with err := none, answers := .taken :: s.answers }) ∧
    (s.fatal = true →
      hostAccess s (.write 0x18 4 d) = { s with answers := .buserror :: s.answers }) ∧
    (s.err ≠ none → (hostAccess s (.write 0x14 4 e)).busy = false ∧ (hostAccess s (.write 0x14 4 e)).cmd = s.cmd)

/-! The register window. -/

/-- 20_memory.md R61, R64, R72: an access of another width, or at a misaligned or unmapped offset, is refused; every
other offset is a register of the window. -/
def Obligations.WindowMap : Prop :=
  ∀ off : Nat,
    ((locate off).isSome = true ↔
      off % 4 = 0 ∧ (off < 0x24 ∨ (0x40 ≤ off ∧ off < 0x90) ∨ (0x2000 ≤ off ∧ off < 0x4000))) ∧
    (∀ i : VIdx, locate (0x40 + 4 * i.val) = some (.vtag i)) ∧
    (∀ k : CIdx, locate (0x80 + 4 * k.val) = some (.ctxtag k)) ∧
    (∀ (i : VIdx) (j : Fin 128), locate (0x2000 + 0x200 * i.val + 4 * j.val) = some (.data i j)) ∧
    (∀ (s : State) (bytes : Nat) (d : Word), bytes ≠ 4 ∨ locate off = none →
      busRead s off bytes = none ∧ busWrite s off bytes d = none)

/-- 20_memory.md R65; 70_reset_and_hazards.md R280; 60_exceptions.md R244: which accesses each condition takes. -/
def Obligations.WindowByCondition : Prop :=
  ∀ (s : State) (off : Nat) (d : Word),
    (s.busy = true →
      ((busRead s off 4).isSome = true ↔ off ∈ [0x00, 0x04, 0x08, 0x10]) ∧ busWrite s off 4 d = none) ∧
    (s.busy = false → s.fatal = true →
      ((busRead s off 4).isSome = true ↔ off ∈ [0x00, 0x04, 0x08, 0x10, 0x18]) ∧
      ((busWrite s off 4 d).isSome = true ↔ off = 0x0C ∧ d = 1)) ∧
    (s.busy = false → s.fatal = false →
      (∀ r, locate off = some r → busRead s off 4 = readReg s r) ∧
      (off ≠ 0x14 → ∀ r, locate off = some r → busWrite s off 4 d = writeReg s d r) ∧
      ((busWrite s 0x14 4 d).isSome = true ↔ s.err = none))

/-- 20_memory.md R66, R70; 60_exceptions.md R265: each access is answered once; a read changes nothing but the record
of answers, and a refused write changes nothing either. The record of answers is the model's (log 1). -/
def Obligations.ReadsAndRefusalsChangeNothing : Prop :=
  ∀ (s : State) (off bytes : Nat) (d : Word),
    (∃ a, hostAccess s (.read off bytes) = { s with answers := a :: s.answers } ∧
      (∀ x, busRead s off bytes = some x → a = .data x) ∧ (busRead s off bytes = none → a = .buserror)) ∧
    (busWrite s off bytes d = none →
      hostAccess s (.write off bytes d) = { s with answers := .buserror :: s.answers }) ∧
    (∀ t, busWrite s off bytes d = some t →
      hostAccess s (.write off bytes d) = { t with answers := .taken :: t.answers })

/-- 20_memory.md R67: what a write to `VTAG[i]` does outside BUSY and FATAL. -/
def Obligations.TagWrite : Prop :=
  ∀ (s : State) (i : VIdx) (d : Word), s.busy = false → s.fatal = false →
    (512 ≤ d.toNat ∨ lmax s.params < d.toNat → busWrite s (0x40 + 4 * i.val) 4 d = none) ∧
    (d = 0 → busWrite s (0x40 + 4 * i.val) 4 d = some { s with v := s.v.set i VReg.cleared }) ∧
    (1 ≤ d.toNat → d.toNat < 512 → d.toNat ≤ lmax s.params →
      busWrite s (0x40 + 4 * i.val) 4 d = some { s with v := s.v.set i (regOf d.toNat .std 0 0) })

/-- 20_memory.md R62, R63, R68: a word of a STD register is written where it is valid; afterwards it reads as written,
every other bit of the register and every other register is as before. -/
def Obligations.DataWrite : Prop :=
  ∀ (s : State) (i : VIdx) (j : Fin 128) (d : Word), s.busy = false → s.fatal = false →
    let off := 0x2000 + 0x200 * i.val + 4 * j.val
    let r := s.reg i
    (¬ (r.valid = true ∧ r.form = .std ∧ j.val < r.len * s.params.w / 32) → busWrite s off 4 d = none) ∧
    (r.valid = true → r.form = .std → j.val < r.len * s.params.w / 32 →
      ∃ x : VData, busWrite s off 4 d = some { s with v := s.v.set i { r with data := x } } ∧
        (∀ t : Nat, t < 4096 → x.getLsbD t =
          if 32 * j.val ≤ t ∧ t < 32 * j.val + 32 then d.getLsbD (t - 32 * j.val) else r.data.getLsbD t) ∧
        busRead { s with v := s.v.set i { r with data := x } } off 4 = some d)

/-- 20_memory.md R62, R69; 10_state.md R28: a valid word of any valid register reads as the 32 bits of its value,
whatever its form; nothing else can be read of a data window. -/
def Obligations.DataRead : Prop :=
  ∀ (s : State) (i : VIdx) (j : Fin 128), s.busy = false → s.fatal = false →
    let off := 0x2000 + 0x200 * i.val + 4 * j.val
    ((s.reg i).valid = true ∧ j.val < (s.reg i).len * s.params.w / 32 →
      busRead s off 4 = some (BitVec.ofNat 32 ((s.reg i).data.toNat / 2 ^ (32 * j.val)))) ∧
    ((s.reg i).valid = false ∨ (s.reg i).len * s.params.w / 32 ≤ j.val → busRead s off 4 = none)

/-- 10_state.md R45, R46: the fields of `VTAG[i]` and `CTXTAG[k]` as they read, every other bit 0. -/
def Obligations.TagReads : Prop :=
  ∀ (s : State) (i : VIdx) (k : CIdx), Inv s → s.busy = false → s.fatal = false →
    busRead s (0x40 + 4 * i.val) 4 = some (BitVec.ofNat 32
      (if (s.reg i).valid then
        2 ^ 31 + (s.reg i).ctx.val * 2 ^ 20 + formNumber (s.reg i).form * 2 ^ 16 + (s.reg i).len else 0)) ∧
    busRead s (0x80 + 4 * k.val) 4 = some (BitVec.ofNat 32
      ((s.slot k).cvalid.toNat * 2 ^ 31 + (s.slot k).kvalid.toNat * 2 ^ 30 + (s.slot k).ordlen * 2 ^ 16 +
        (s.slot k).clen))

/-- 10_state.md R31, R36 to R42, R44; 20_memory.md R65, R74: what the control registers read: ID, CFG0, CFG1 and STATUS in
every condition, ERR in every condition but BUSY, the others outside BUSY and FATAL. -/
def Obligations.ControlRegisterReads : Prop :=
  ∀ s : State, Inv s →
    let p := s.params
    let f := s.flags
    (busRead s 0x00 4 = some 0x52494E47 ∧
      busRead s 0x04 4 = some (BitVec.ofNat 32
        (p.w + lmax p * 2 ^ 8 + 16 * 2 ^ 20 + 4 * 2 ^ 25 + p.win * 2 ^ 28)) ∧
      busRead s 0x08 4 = some (BitVec.ofNat 32 p.blindBits) ∧
      busRead s 0x10 4 = some (BitVec.ofNat 32
        (s.busy.toNat + s.done.toNat * 2 + s.err.isSome.toNat * 4 + s.fatal.toNat * 8))) ∧
    (s.busy = false → busRead s 0x18 4 = some (errWord s.err)) ∧
    (s.busy = false → s.fatal = false →
      busRead s 0x0C 4 = some 0 ∧
      busRead s 0x14 4 = some s.cmd ∧
      busRead s 0x1C 4 = some (BitVec.ofNat 32
        (f.c.toNat + f.z.toNat * 2 + f.lt.toNat * 4 + f.eq.toNat * 8 + f.gt.toNat * 16 + f.inf.toNat * 32)) ∧
      busRead s 0x20 4 = some (BitVec.ofNat 32 (s.inten.doneIe.toNat + s.inten.errIe.toNat * 2)))

/-- 10_state.md R39, R40, R44; 60_exceptions.md R250: writes to `CTRL`, `STATUS`, `INTEN` and the read-only registers
outside BUSY and FATAL, and the interrupt line in every condition. -/
def Obligations.ControlRegisterWrites : Prop :=
  ∀ (s : State) (d : Word),
    (s.busy = false → s.fatal = false →
      (d ≠ 1 → busWrite s 0x0C 4 d = none) ∧
      (busWrite s 0x10 4 d = if d = 2 then some { s with done := false } else if d = 0 then some s else none) ∧
      (busWrite s 0x20 4 d = if d.toNat < 4 then
        some { s with inten := { doneIe := d.getLsbD 0, errIe := d.getLsbD 1 } } else none) ∧
      (∀ off ∈ [0x00, 0x04, 0x08, 0x1C, 0x80, 0x84, 0x88, 0x8C], busWrite s off 4 d = none)) ∧
    s.irq = ((s.done && s.inten.doneIe) || (s.err.isSome && s.inten.errIe))

/-- 10_state.md R50; 70_reset_and_hazards.md R270, R271, R272: hard reset in any condition and soft reset in any
condition but BUSY give every piece of the block's state its reset value. That the configuration and the events to
come stay is the model's (log 1, log 4). -/
def Obligations.ResetClearsEverything : Prop :=
  ∀ (s : State) (rest : List Event),
    let isReset := fun t : State =>
      (∀ i : VIdx, t.reg i = { valid := false, len := 0, form := .std, ctx := 0, data := 0 }) ∧
      (∀ k : CIdx, t.slot k = { cvalid := false, clen := 0, m := 0, one := 0, rr := 0, n0 := 0, kvalid := false,
                                 a := 0, b := 0, b3 := 0, ord := 0, ordlen := 0 }) ∧
      (flagsWord t.flags = 0 ∧ t.busy = false ∧ t.done = false ∧ t.fatal = false ∧ t.cmd = 0 ∧ t.err = none) ∧
      t.inten = { doneIe := false, errIe := false } ∧ t.irq = false ∧ t.params = s.params
    (s.events = .hardReset :: rest → ∃ t, step s = .next t ∧ isReset t ∧ t.events = rest) ∧
    (s.busy = false → ∃ t, busWrite s 0x0C 4 1 = some t ∧ isReset t ∧ t.events = s.events) ∧
    (s.busy = true → busWrite s 0x0C 4 1 = none) ∧
    isReset { State.reset with params := s.params }

/-! Whole-machine rules. -/

/-- 10_state.md R24, R33: the invariant holds after reset. The configuration at reset is the spec's
default (log 4), with the model's base address 0 (log 7). -/
def Obligations.InvariantAtReset : Prop := Inv State.reset

/-- 10_state.md R24, R33; 60_exceptions.md R244, R252: every step of every state keeps the invariant: register tags
and values in range, Montgomery values and point coordinates below the modulus of a loaded slot, slot constants right
for the modulus, FATAL exactly with a class 1 error, nothing pending while a command runs. The spec marks R24 and R33
as its own inferences, from the rules that write registers and slots. -/
def Obligations.StepKeepsInvariant : Prop :=
  ∀ s t : State, Inv s → step s = .next t → Inv t

/-- 10_state.md R25: who writes Montgomery-form values and point coordinates: only the commands named, never the host. -/
def Obligations.WhoWritesForms : Prop :=
  (∀ (i : Instr) (s t : State) (r : VIdx), exec i s = .next t → t.reg r ≠ s.reg r →
    ((t.reg r).form = .mont →
      (∃ rd ra cx, i = .tomont rd ra cx) ∨ (∃ rd ra rb cx, i = .montmul rd ra rb cx) ∨
      (∃ rd ra cx, i = .montsqr rd ra cx) ∨ (∃ rd ra rb cx, i = .modexp rd ra rb cx) ∨
      (∃ rd ra rb rc cx, i = .modexpb rd ra rb rc cx) ∨ (∃ rd ra rb cond, i = .sel rd ra rb cond) ∨
      (∃ ra rb cond, i = .cswap ra rb cond)) ∧
    ((t.reg r).form = .px ∨ (t.reg r).form = .py ∨ (t.reg r).form = .pz →
      (∃ rd ra rb cx, i = .ptload rd ra rb cx) ∨ (∃ rd cx, i = .ptinf rd cx) ∨
      (∃ rd ra rb cx, i = .ptadd rd ra rb cx) ∨ (∃ rd ra cx, i = .ptdbl rd ra cx) ∨
      (∃ rd ra rb cx noinf, i = .scmul rd ra rb cx noinf))) ∧
  (∀ (s : State) (a : Access) (r : VIdx), (hostAccess s a).reg r ≠ s.reg r → ((hostAccess s a).reg r).form = .std)

/-- 10_state.md R29, R26: a command changes no register but its destinations, save those that a reload of a slot or
ZEROIZE clears. -/
def Obligations.OnlyDestinationsChange : Prop :=
  ∀ (i : Instr) (s t : State) (r : VIdx), exec i s = .next t → r ∉ destRegs i →
    t.reg r = s.reg r ∨
    (t.reg r = VReg.cleared ∧
      (i = .zeroize ∨
       (∃ ra, i = .ctxload ra (s.reg r).ctx ∧ (s.reg r).form ≠ .std) ∨
       (∃ ra rb rc, i = .crvload ra rb rc (s.reg r).ctx ∧ (s.reg r).form ≠ .std ∧ (s.reg r).form ≠ .mont)))

/-- 10_state.md R30, R31, R32, R34; 60_exceptions.md R243: each flag is written by its command only, a slot only by CTXLOAD
and CRVLOAD of it, all of them by ZEROIZE. Of the control registers a command writes STATUS and ERR alone, by its
completion: BUSY 0, DONE 1, and with an error `ERR` and, for class 1, FATAL; it writes no `CMD` and no `INTEN`. That the
configuration, the events to come and the answers stay is the model's (log 1, log 4). -/
def Obligations.WhoWritesFlagsAndSlots : Prop :=
  ∀ (i : Instr) (s t : State), exec i s = .next t →
    (i ≠ .zeroize →
      (t.flags.c ≠ s.flags.c → (∃ rd ra rb, i = .add rd ra rb) ∨ (∃ rd ra rb, i = .sub rd ra rb)) ∧
      (t.flags.z ≠ s.flags.z → ∃ ra, i = .iszero ra) ∧
      ((t.flags.lt, t.flags.eq, t.flags.gt) ≠ (s.flags.lt, s.flags.eq, s.flags.gt) → ∃ ra rb, i = .cmp ra rb) ∧
      (t.flags.inf ≠ s.flags.inf → ∃ rd ra rb cx, i = .ptaff rd ra rb cx) ∧
      (∀ k : CIdx, t.slot k ≠ s.slot k → (∃ ra, i = .ctxload ra k) ∨ (∃ ra rb rc, i = .crvload ra rb rc k))) ∧
    (t.busy = false ∧ t.done = true) ∧
    ((t.err = s.err ∧ t.fatal = s.fatal) ∨
      (∃ e ∈ codesOf i, t.err = some e ∧ t.fatal = (s.fatal || decide (classNumber (errClass e) = 1)))) ∧
    t.cmd = s.cmd ∧ t.inten = s.inten ∧ t.params = s.params ∧ t.events = s.events ∧ t.answers = s.answers

/-- 70_reset_and_hazards.md R289; 60_exceptions.md R246: the constant-time rule. In any two states that agree on the
public quantities, the same command has the same trace whenever the same check fails in both, or none; and whether it
ends with a code of steps 1 to 6, and with which, is the same in both. Of R289 the number of steps is left out: the
model has no time (log 8). -/
def Obligations.ConstantTimeTrace : Prop :=
  ∀ (i : Instr) (s t s' t' : State), SamePublic i s t → s.err = none → t.err = none →
    exec i s = .next s' → exec i t = .next t' →
    (s'.err = t'.err → s'.trace = t'.trace) ∧
    (∀ e ∈ tagCodes, (s'.err = some e ↔ t'.err = some e))

/-- 70_reset_and_hazards.md R290, R292: the trace of every command, ended well or with any code. Where the trace is
kept is the model's (log 5). The spec marks R290 and R292 as its own inferences, from the command rules and R246,
R247. -/
def Obligations.TracesOfAllCommands : Prop :=
  ∀ (i : Instr) (s t : State), Inv s → s.err = none → exec i s = .next t →
    (t.err = none → t.trace = successTrace s i) ∧ (∀ e, t.err = some e → t.trace = errorTrace s i e)
end

