-- ==== Sys2Proof/Laws/Limbs.lean ====
section
/-! SUPPORT. Limb vectors and traced computations: values, lengths, and what `bind` does to value and trace. -/

namespace Sys2Proof.Machine

/-! Values. -/

@[simp] theorem val_nil {w : Nat} : val ([] : Limbs w) = 0 := rfl

@[simp] theorem val_cons {w : Nat} (a : BitVec w) (as : Limbs w) : val (a :: as) = a.toNat + 2 ^ w * val as := rfl

/-- A limb vector of length `n` is below `2^(w*n)` (00_scope.md R12). -/
theorem val_lt {w : Nat} (a : Limbs w) : val a < 2 ^ (w * a.length) := by
  induction a with
  | nil => simp
  | cons x xs ih =>
    have hx := x.isLt
    rw [List.length_cons, Nat.mul_succ, Nat.pow_add, val_cons]
    nlinarith [Nat.mul_le_mul_left (2 ^ w) (Nat.succ_le_of_lt ih)]

@[simp] theorem length_limbsOf (w n v : Nat) : (limbsOf w n v).length = n := by
  induction n generalizing v with
  | zero => rfl
  | succ n ih => simp [limbsOf, ih]

/-- `limbs_n(v)` has the value `v mod 2^(w*n)` (R12). -/
theorem val_limbsOf (w n v : Nat) : val (limbsOf w n v) = v % 2 ^ (w * n) := by
  induction n generalizing v with
  | zero => simp [limbsOf, Nat.mod_one]
  | succ n ih =>
    simp only [limbsOf, val_cons, BitVec.toNat_ofNat, ih, Nat.shiftRight_eq_div_pow, Nat.mul_succ]
    rw [Nat.add_comm (w * n) w, Nat.pow_add, Nat.mod_mul]

/-- A limb vector is the one of its value (R12). -/
theorem limbsOf_val {w : Nat} (a : Limbs w) : limbsOf w a.length (val a) = a := by
  induction a with
  | nil => rfl
  | cons x xs ih =>
    have hx := x.isLt
    simp only [List.length_cons, limbsOf, val_cons, Nat.shiftRight_eq_div_pow]
    congr 1
    · apply BitVec.eq_of_toNat_eq
      simp [Nat.mod_eq_of_lt hx]
    · rw [Nat.add_mul_div_left _ _ (Nat.two_pow_pos w), Nat.div_eq_of_lt hx, Nat.zero_add, ih]

/-- Two limb vectors of one length and one value are equal. -/
theorem limbs_ext {w : Nat} {a b : Limbs w} (hl : a.length = b.length) (hv : val a = val b) : a = b := by
  rw [← limbsOf_val a, ← limbsOf_val b, hl, hv]

/-! Lengths. -/

theorem length_addLoop {w : Nat} (a b : Limbs w) (c : Bool) : (addLoop a b c).1.length = min a.length b.length := by
  induction a generalizing b c with
  | nil => simp [addLoop]
  | cons x xs ih => cases b <;> simp [addLoop, ih]

@[simp] theorem length_addN {w : Nat} (a b : Limbs w) : (addN a b).1.length = min a.length b.length :=
  length_addLoop a b false

theorem length_subLoop {w : Nat} (a b : Limbs w) (k : Bool) : (subLoop a b k).1.length = min a.length b.length := by
  induction a generalizing b k with
  | nil => simp [subLoop]
  | cons x xs ih => cases b <;> simp [subLoop, ih]

@[simp] theorem length_subN {w : Nat} (a b : Limbs w) : (subN a b).1.length = min a.length b.length :=
  length_subLoop a b false

@[simp] theorem length_selectN {w : Nat} (f : Bool) (a b : Limbs w) :
    (selectN f a b).length = min a.length b.length := by
  simp [selectN]

theorem length_macRow {w : Nat} (y : BitVec w) (t x : Limbs w) (c : BitVec w) :
    (macRow y t x c).1.length = min t.length x.length := by
  induction t generalizing x c with
  | nil => simp [macRow]
  | cons a as ih => cases x <;> simp [macRow, ih]

/-! Masks. -/

@[simp] theorem maskOf_true (w : Nat) : maskOf w true = BitVec.allOnes w := by
  rcases w with _ | w
  · exact BitVec.of_length_zero.trans BitVec.of_length_zero.symm
  · simp [maskOf, BitVec.ofBool, BitVec.neg_one_eq_allOnes, BitVec.zero_sub]

@[simp] theorem maskOf_false (w : Nat) : maskOf w false = 0 := by
  simp [maskOf, BitVec.ofBool]

/-! Traced computations. -/

@[simp] theorem pure_val {α : Type} (x : α) : (Traced.pure x).val = x := rfl
@[simp] theorem pure_trace {α : Type} (x : α) : (Traced.pure x).trace = [] := rfl
@[simp] theorem bind_val {α β : Type} (x : Traced α) (f : α → Traced β) : (x.bind f).val = (f x.val).val := rfl
@[simp] theorem bind_trace {α β : Type} (x : Traced α) (f : α → Traced β) :
    (x.bind f).trace = x.trace ++ (f x.val).trace := rfl
@[simp] theorem recordAs_val {α : Type} (x : Traced α) (tr : List TraceEvent) : (x.recordAs tr).val = x.val := rfl
@[simp] theorem recordAs_trace {α : Type} (x : Traced α) (tr : List TraceEvent) : (x.recordAs tr).trace = tr := rfl
@[simp] theorem addT_val {w : Nat} (a b : Limbs w) : (addT a b).val = addN a b := rfl
@[simp] theorem addT_trace {w : Nat} (a b : Limbs w) : (addT a b).trace = [.ladd a.length] := rfl
@[simp] theorem subT_val {w : Nat} (a b : Limbs w) : (subT a b).val = subN a b := rfl
@[simp] theorem subT_trace {w : Nat} (a b : Limbs w) : (subT a b).trace = [.lsub a.length] := rfl
@[simp] theorem cmpT_val {w : Nat} (a b : Limbs w) : (cmpT a b).val = cmpN a b := rfl
@[simp] theorem cmpT_trace {w : Nat} (a b : Limbs w) : (cmpT a b).trace = [.lcmp a.length] := rfl
@[simp] theorem isZeroT_val {w : Nat} (a : Limbs w) : (isZeroT a).val = isZeroN a := rfl
@[simp] theorem isZeroT_trace {w : Nat} (a : Limbs w) : (isZeroT a).trace = [.lzero a.length] := rfl
@[simp] theorem selectT_val {w : Nat} (f : Bool) (a b : Limbs w) : (selectT f a b).val = selectN f a b := rfl
@[simp] theorem selectT_trace {w : Nat} (f : Bool) (a b : Limbs w) : (selectT f a b).trace = [.lsel a.length] := rfl
@[simp] theorem cswapT_val {w : Nat} (f : Bool) (a b : Limbs w) : (cswapT f a b).val = cswapN f a b := rfl
@[simp] theorem cswapT_trace {w : Nat} (f : Bool) (a b : Limbs w) : (cswapT f a b).trace = [.lswap a.length] := rfl
@[simp] theorem mmT_val {w : Nat} (k : Ctx w) (a b : Limbs w) : (mmT k a b).val = montmul k.m k.n0 a b := rfl
@[simp] theorem mmT_trace {w : Nat} (k : Ctx w) (a b : Limbs w) : (mmT k a b).trace = [.mmul k.m.length] := rfl
@[simp] theorem paddE_val {w : Nat} (k : Ctx w) (p q : Point w) : (paddE k p q).val = (paddT k p q).val :=
  recordAs_val _ _
@[simp] theorem paddE_trace {w : Nat} (k : Ctx w) (p q : Point w) : (paddE k p q).trace = [.padd k.m.length] :=
  recordAs_trace _ _

/-! Lengths of the operands of a state. -/

@[simp] theorem length_limbs (s : State) (i : VIdx) : (s.limbs i).length = (s.reg i).len := length_limbsOf ..
@[simp] theorem length_order (s : State) (k : CIdx) : (s.order k).length = (s.slot k).ordlen := length_limbsOf ..
@[simp] theorem length_ctx_m (s : State) (k : CIdx) : (s.ctx k).m.length = (s.slot k).clen := length_limbsOf ..
@[simp] theorem length_ctx_one (s : State) (k : CIdx) : (s.ctx k).one.length = (s.slot k).clen := length_limbsOf ..
@[simp] theorem length_ctx_rr (s : State) (k : CIdx) : (s.ctx k).rr.length = (s.slot k).clen := length_limbsOf ..
@[simp] theorem length_ctx_a (s : State) (k : CIdx) : (s.ctx k).a.length = (s.slot k).clen := length_limbsOf ..
@[simp] theorem length_ctx_b (s : State) (k : CIdx) : (s.ctx k).b.length = (s.slot k).clen := length_limbsOf ..
@[simp] theorem length_ctx_b3 (s : State) (k : CIdx) : (s.ctx k).b3.length = (s.slot k).clen := length_limbsOf ..

/-- The value of a register as a limb vector is its data, where the data is in range (10_state.md R24 b). -/
theorem val_limbs (s : State) (i : VIdx) (h : (s.reg i).data.toNat < 2 ^ (s.params.w * (s.reg i).len)) :
    val (s.limbs i) = (s.reg i).data.toNat := by
  rw [State.limbs, val_limbsOf, Nat.mod_eq_of_lt h]

end Sys2Proof.Machine
end

