-- ==== Sys2Proof/Laws/State.lean ====
section
/-! SUPPORT. One lemma per field of the state per update of it, and the registers and slots after an update. -/

namespace Sys2Proof.Machine

/-! `setReg`. -/

@[simp] theorem setReg_v (s : State) (i : VIdx) (r : VReg) :
    (s.setReg i r).v = s.v.set i r := rfl
@[simp] theorem setReg_c (s : State) (i : VIdx) (r : VReg) :
    (s.setReg i r).c = s.c := rfl
@[simp] theorem setReg_flags (s : State) (i : VIdx) (r : VReg) :
    (s.setReg i r).flags = s.flags := rfl
@[simp] theorem setReg_busy (s : State) (i : VIdx) (r : VReg) :
    (s.setReg i r).busy = s.busy := rfl
@[simp] theorem setReg_done (s : State) (i : VIdx) (r : VReg) :
    (s.setReg i r).done = s.done := rfl
@[simp] theorem setReg_fatal (s : State) (i : VIdx) (r : VReg) :
    (s.setReg i r).fatal = s.fatal := rfl
@[simp] theorem setReg_cmd (s : State) (i : VIdx) (r : VReg) :
    (s.setReg i r).cmd = s.cmd := rfl
@[simp] theorem setReg_err (s : State) (i : VIdx) (r : VReg) :
    (s.setReg i r).err = s.err := rfl
@[simp] theorem setReg_inten (s : State) (i : VIdx) (r : VReg) :
    (s.setReg i r).inten = s.inten := rfl
@[simp] theorem setReg_params (s : State) (i : VIdx) (r : VReg) :
    (s.setReg i r).params = s.params := rfl
@[simp] theorem setReg_events (s : State) (i : VIdx) (r : VReg) :
    (s.setReg i r).events = s.events := rfl
@[simp] theorem setReg_answers (s : State) (i : VIdx) (r : VReg) :
    (s.setReg i r).answers = s.answers := rfl
@[simp] theorem setReg_rng (s : State) (i : VIdx) (r : VReg) :
    (s.setReg i r).rng = s.rng := rfl
@[simp] theorem setReg_rngCount (s : State) (i : VIdx) (r : VReg) :
    (s.setReg i r).rngCount = s.rngCount := rfl
@[simp] theorem setReg_trace (s : State) (i : VIdx) (r : VReg) :
    (s.setReg i r).trace = s.trace := rfl

/-! `setSlot`. -/

@[simp] theorem setSlot_v (s : State) (k : CIdx) (x : Slot) :
    (s.setSlot k x).v = s.v := rfl
@[simp] theorem setSlot_c (s : State) (k : CIdx) (x : Slot) :
    (s.setSlot k x).c = s.c.set k x := rfl
@[simp] theorem setSlot_flags (s : State) (k : CIdx) (x : Slot) :
    (s.setSlot k x).flags = s.flags := rfl
@[simp] theorem setSlot_busy (s : State) (k : CIdx) (x : Slot) :
    (s.setSlot k x).busy = s.busy := rfl
@[simp] theorem setSlot_done (s : State) (k : CIdx) (x : Slot) :
    (s.setSlot k x).done = s.done := rfl
@[simp] theorem setSlot_fatal (s : State) (k : CIdx) (x : Slot) :
    (s.setSlot k x).fatal = s.fatal := rfl
@[simp] theorem setSlot_cmd (s : State) (k : CIdx) (x : Slot) :
    (s.setSlot k x).cmd = s.cmd := rfl
@[simp] theorem setSlot_err (s : State) (k : CIdx) (x : Slot) :
    (s.setSlot k x).err = s.err := rfl
@[simp] theorem setSlot_inten (s : State) (k : CIdx) (x : Slot) :
    (s.setSlot k x).inten = s.inten := rfl
@[simp] theorem setSlot_params (s : State) (k : CIdx) (x : Slot) :
    (s.setSlot k x).params = s.params := rfl
@[simp] theorem setSlot_events (s : State) (k : CIdx) (x : Slot) :
    (s.setSlot k x).events = s.events := rfl
@[simp] theorem setSlot_answers (s : State) (k : CIdx) (x : Slot) :
    (s.setSlot k x).answers = s.answers := rfl
@[simp] theorem setSlot_rng (s : State) (k : CIdx) (x : Slot) :
    (s.setSlot k x).rng = s.rng := rfl
@[simp] theorem setSlot_rngCount (s : State) (k : CIdx) (x : Slot) :
    (s.setSlot k x).rngCount = s.rngCount := rfl
@[simp] theorem setSlot_trace (s : State) (k : CIdx) (x : Slot) :
    (s.setSlot k x).trace = s.trace := rfl

/-! `clearWhere`. -/

@[simp] theorem clearWhere_v (s : State) (p : VReg → Bool) :
    (s.clearWhere p).v = s.v.map fun r => if p r then VReg.cleared else r := rfl
@[simp] theorem clearWhere_c (s : State) (p : VReg → Bool) :
    (s.clearWhere p).c = s.c := rfl
@[simp] theorem clearWhere_flags (s : State) (p : VReg → Bool) :
    (s.clearWhere p).flags = s.flags := rfl
@[simp] theorem clearWhere_busy (s : State) (p : VReg → Bool) :
    (s.clearWhere p).busy = s.busy := rfl
@[simp] theorem clearWhere_done (s : State) (p : VReg → Bool) :
    (s.clearWhere p).done = s.done := rfl
@[simp] theorem clearWhere_fatal (s : State) (p : VReg → Bool) :
    (s.clearWhere p).fatal = s.fatal := rfl
@[simp] theorem clearWhere_cmd (s : State) (p : VReg → Bool) :
    (s.clearWhere p).cmd = s.cmd := rfl
@[simp] theorem clearWhere_err (s : State) (p : VReg → Bool) :
    (s.clearWhere p).err = s.err := rfl
@[simp] theorem clearWhere_inten (s : State) (p : VReg → Bool) :
    (s.clearWhere p).inten = s.inten := rfl
@[simp] theorem clearWhere_params (s : State) (p : VReg → Bool) :
    (s.clearWhere p).params = s.params := rfl
@[simp] theorem clearWhere_events (s : State) (p : VReg → Bool) :
    (s.clearWhere p).events = s.events := rfl
@[simp] theorem clearWhere_answers (s : State) (p : VReg → Bool) :
    (s.clearWhere p).answers = s.answers := rfl
@[simp] theorem clearWhere_rng (s : State) (p : VReg → Bool) :
    (s.clearWhere p).rng = s.rng := rfl
@[simp] theorem clearWhere_rngCount (s : State) (p : VReg → Bool) :
    (s.clearWhere p).rngCount = s.rngCount := rfl
@[simp] theorem clearWhere_trace (s : State) (p : VReg → Bool) :
    (s.clearWhere p).trace = s.trace := rfl

/-! `setC`. -/

@[simp] theorem setC_v (s : State) (b : Bool) :
    (setC s b).v = s.v := rfl
@[simp] theorem setC_c (s : State) (b : Bool) :
    (setC s b).c = s.c := rfl
@[simp] theorem setC_flags (s : State) (b : Bool) :
    (setC s b).flags = { s.flags with c := b } := rfl
@[simp] theorem setC_busy (s : State) (b : Bool) :
    (setC s b).busy = s.busy := rfl
@[simp] theorem setC_done (s : State) (b : Bool) :
    (setC s b).done = s.done := rfl
@[simp] theorem setC_fatal (s : State) (b : Bool) :
    (setC s b).fatal = s.fatal := rfl
@[simp] theorem setC_cmd (s : State) (b : Bool) :
    (setC s b).cmd = s.cmd := rfl
@[simp] theorem setC_err (s : State) (b : Bool) :
    (setC s b).err = s.err := rfl
@[simp] theorem setC_inten (s : State) (b : Bool) :
    (setC s b).inten = s.inten := rfl
@[simp] theorem setC_params (s : State) (b : Bool) :
    (setC s b).params = s.params := rfl
@[simp] theorem setC_events (s : State) (b : Bool) :
    (setC s b).events = s.events := rfl
@[simp] theorem setC_answers (s : State) (b : Bool) :
    (setC s b).answers = s.answers := rfl
@[simp] theorem setC_rng (s : State) (b : Bool) :
    (setC s b).rng = s.rng := rfl
@[simp] theorem setC_rngCount (s : State) (b : Bool) :
    (setC s b).rngCount = s.rngCount := rfl
@[simp] theorem setC_trace (s : State) (b : Bool) :
    (setC s b).trace = s.trace := rfl

/-! `setZ`. -/

@[simp] theorem setZ_v (s : State) (b : Bool) :
    (setZ s b).v = s.v := rfl
@[simp] theorem setZ_c (s : State) (b : Bool) :
    (setZ s b).c = s.c := rfl
@[simp] theorem setZ_flags (s : State) (b : Bool) :
    (setZ s b).flags = { s.flags with z := b } := rfl
@[simp] theorem setZ_busy (s : State) (b : Bool) :
    (setZ s b).busy = s.busy := rfl
@[simp] theorem setZ_done (s : State) (b : Bool) :
    (setZ s b).done = s.done := rfl
@[simp] theorem setZ_fatal (s : State) (b : Bool) :
    (setZ s b).fatal = s.fatal := rfl
@[simp] theorem setZ_cmd (s : State) (b : Bool) :
    (setZ s b).cmd = s.cmd := rfl
@[simp] theorem setZ_err (s : State) (b : Bool) :
    (setZ s b).err = s.err := rfl
@[simp] theorem setZ_inten (s : State) (b : Bool) :
    (setZ s b).inten = s.inten := rfl
@[simp] theorem setZ_params (s : State) (b : Bool) :
    (setZ s b).params = s.params := rfl
@[simp] theorem setZ_events (s : State) (b : Bool) :
    (setZ s b).events = s.events := rfl
@[simp] theorem setZ_answers (s : State) (b : Bool) :
    (setZ s b).answers = s.answers := rfl
@[simp] theorem setZ_rng (s : State) (b : Bool) :
    (setZ s b).rng = s.rng := rfl
@[simp] theorem setZ_rngCount (s : State) (b : Bool) :
    (setZ s b).rngCount = s.rngCount := rfl
@[simp] theorem setZ_trace (s : State) (b : Bool) :
    (setZ s b).trace = s.trace := rfl

/-! `setCmp`. -/

@[simp] theorem setCmp_v (s : State) (r : Cmp) :
    (setCmp s r).v = s.v := rfl
@[simp] theorem setCmp_c (s : State) (r : Cmp) :
    (setCmp s r).c = s.c := rfl
@[simp] theorem setCmp_flags (s : State) (r : Cmp) :
    (setCmp s r).flags = { s.flags with lt := r.lt, eq := r.eq, gt := r.gt } := rfl
@[simp] theorem setCmp_busy (s : State) (r : Cmp) :
    (setCmp s r).busy = s.busy := rfl
@[simp] theorem setCmp_done (s : State) (r : Cmp) :
    (setCmp s r).done = s.done := rfl
@[simp] theorem setCmp_fatal (s : State) (r : Cmp) :
    (setCmp s r).fatal = s.fatal := rfl
@[simp] theorem setCmp_cmd (s : State) (r : Cmp) :
    (setCmp s r).cmd = s.cmd := rfl
@[simp] theorem setCmp_err (s : State) (r : Cmp) :
    (setCmp s r).err = s.err := rfl
@[simp] theorem setCmp_inten (s : State) (r : Cmp) :
    (setCmp s r).inten = s.inten := rfl
@[simp] theorem setCmp_params (s : State) (r : Cmp) :
    (setCmp s r).params = s.params := rfl
@[simp] theorem setCmp_events (s : State) (r : Cmp) :
    (setCmp s r).events = s.events := rfl
@[simp] theorem setCmp_answers (s : State) (r : Cmp) :
    (setCmp s r).answers = s.answers := rfl
@[simp] theorem setCmp_rng (s : State) (r : Cmp) :
    (setCmp s r).rng = s.rng := rfl
@[simp] theorem setCmp_rngCount (s : State) (r : Cmp) :
    (setCmp s r).rngCount = s.rngCount := rfl
@[simp] theorem setCmp_trace (s : State) (r : Cmp) :
    (setCmp s r).trace = s.trace := rfl

/-! `setInf`. -/

@[simp] theorem setInf_v (s : State) (b : Bool) :
    (setInf s b).v = s.v := rfl
@[simp] theorem setInf_c (s : State) (b : Bool) :
    (setInf s b).c = s.c := rfl
@[simp] theorem setInf_flags (s : State) (b : Bool) :
    (setInf s b).flags = { s.flags with inf := b } := rfl
@[simp] theorem setInf_busy (s : State) (b : Bool) :
    (setInf s b).busy = s.busy := rfl
@[simp] theorem setInf_done (s : State) (b : Bool) :
    (setInf s b).done = s.done := rfl
@[simp] theorem setInf_fatal (s : State) (b : Bool) :
    (setInf s b).fatal = s.fatal := rfl
@[simp] theorem setInf_cmd (s : State) (b : Bool) :
    (setInf s b).cmd = s.cmd := rfl
@[simp] theorem setInf_err (s : State) (b : Bool) :
    (setInf s b).err = s.err := rfl
@[simp] theorem setInf_inten (s : State) (b : Bool) :
    (setInf s b).inten = s.inten := rfl
@[simp] theorem setInf_params (s : State) (b : Bool) :
    (setInf s b).params = s.params := rfl
@[simp] theorem setInf_events (s : State) (b : Bool) :
    (setInf s b).events = s.events := rfl
@[simp] theorem setInf_answers (s : State) (b : Bool) :
    (setInf s b).answers = s.answers := rfl
@[simp] theorem setInf_rng (s : State) (b : Bool) :
    (setInf s b).rng = s.rng := rfl
@[simp] theorem setInf_rngCount (s : State) (b : Bool) :
    (setInf s b).rngCount = s.rngCount := rfl
@[simp] theorem setInf_trace (s : State) (b : Bool) :
    (setInf s b).trace = s.trace := rfl

/-! `zeroizeAll`. -/

@[simp] theorem zeroizeAll_v (s : State) :
    (s.zeroizeAll).v = Vector.replicate 16 VReg.cleared := rfl
@[simp] theorem zeroizeAll_c (s : State) :
    (s.zeroizeAll).c = Vector.replicate 4 Slot.empty := rfl
@[simp] theorem zeroizeAll_flags (s : State) :
    (s.zeroizeAll).flags = Flags.clear := rfl
@[simp] theorem zeroizeAll_busy (s : State) :
    (s.zeroizeAll).busy = s.busy := rfl
@[simp] theorem zeroizeAll_done (s : State) :
    (s.zeroizeAll).done = s.done := rfl
@[simp] theorem zeroizeAll_fatal (s : State) :
    (s.zeroizeAll).fatal = s.fatal := rfl
@[simp] theorem zeroizeAll_cmd (s : State) :
    (s.zeroizeAll).cmd = s.cmd := rfl
@[simp] theorem zeroizeAll_err (s : State) :
    (s.zeroizeAll).err = s.err := rfl
@[simp] theorem zeroizeAll_inten (s : State) :
    (s.zeroizeAll).inten = s.inten := rfl
@[simp] theorem zeroizeAll_params (s : State) :
    (s.zeroizeAll).params = s.params := rfl
@[simp] theorem zeroizeAll_events (s : State) :
    (s.zeroizeAll).events = s.events := rfl
@[simp] theorem zeroizeAll_answers (s : State) :
    (s.zeroizeAll).answers = s.answers := rfl
@[simp] theorem zeroizeAll_rng (s : State) :
    (s.zeroizeAll).rng = s.rng := rfl
@[simp] theorem zeroizeAll_rngCount (s : State) :
    (s.zeroizeAll).rngCount = s.rngCount := rfl
@[simp] theorem zeroizeAll_trace (s : State) :
    (s.zeroizeAll).trace = s.trace := rfl

/-! `errorState`. -/

@[simp] theorem errorState_v (e : ErrCode) (tr : List TraceEvent) (s : State) :
    (errorState e tr s).v = s.v := rfl
@[simp] theorem errorState_c (e : ErrCode) (tr : List TraceEvent) (s : State) :
    (errorState e tr s).c = s.c := rfl
@[simp] theorem errorState_flags (e : ErrCode) (tr : List TraceEvent) (s : State) :
    (errorState e tr s).flags = s.flags := rfl
@[simp] theorem errorState_busy (e : ErrCode) (tr : List TraceEvent) (s : State) :
    (errorState e tr s).busy = false := rfl
@[simp] theorem errorState_done (e : ErrCode) (tr : List TraceEvent) (s : State) :
    (errorState e tr s).done = true := rfl
@[simp] theorem errorState_fatal (e : ErrCode) (tr : List TraceEvent) (s : State) :
    (errorState e tr s).fatal = (s.fatal || (errClass e == .contract)) := rfl
@[simp] theorem errorState_cmd (e : ErrCode) (tr : List TraceEvent) (s : State) :
    (errorState e tr s).cmd = s.cmd := rfl
@[simp] theorem errorState_err (e : ErrCode) (tr : List TraceEvent) (s : State) :
    (errorState e tr s).err = some e := rfl
@[simp] theorem errorState_inten (e : ErrCode) (tr : List TraceEvent) (s : State) :
    (errorState e tr s).inten = s.inten := rfl
@[simp] theorem errorState_params (e : ErrCode) (tr : List TraceEvent) (s : State) :
    (errorState e tr s).params = s.params := rfl
@[simp] theorem errorState_events (e : ErrCode) (tr : List TraceEvent) (s : State) :
    (errorState e tr s).events = s.events := rfl
@[simp] theorem errorState_answers (e : ErrCode) (tr : List TraceEvent) (s : State) :
    (errorState e tr s).answers = s.answers := rfl
@[simp] theorem errorState_rng (e : ErrCode) (tr : List TraceEvent) (s : State) :
    (errorState e tr s).rng = s.rng := rfl
@[simp] theorem errorState_rngCount (e : ErrCode) (tr : List TraceEvent) (s : State) :
    (errorState e tr s).rngCount = s.rngCount := rfl
@[simp] theorem errorState_trace (e : ErrCode) (tr : List TraceEvent) (s : State) :
    (errorState e tr s).trace = tr := rfl

/-! `clearErr`. -/

@[simp] theorem clearErr_v (s : State) :
    (s.clearErr).v = s.v := rfl
@[simp] theorem clearErr_c (s : State) :
    (s.clearErr).c = s.c := rfl
@[simp] theorem clearErr_flags (s : State) :
    (s.clearErr).flags = s.flags := rfl
@[simp] theorem clearErr_busy (s : State) :
    (s.clearErr).busy = s.busy := rfl
@[simp] theorem clearErr_done (s : State) :
    (s.clearErr).done = s.done := rfl
@[simp] theorem clearErr_fatal (s : State) :
    (s.clearErr).fatal = s.fatal := rfl
@[simp] theorem clearErr_cmd (s : State) :
    (s.clearErr).cmd = s.cmd := rfl
@[simp] theorem clearErr_err (s : State) :
    (s.clearErr).err = none := rfl
@[simp] theorem clearErr_inten (s : State) :
    (s.clearErr).inten = s.inten := rfl
@[simp] theorem clearErr_params (s : State) :
    (s.clearErr).params = s.params := rfl
@[simp] theorem clearErr_events (s : State) :
    (s.clearErr).events = s.events := rfl
@[simp] theorem clearErr_answers (s : State) :
    (s.clearErr).answers = s.answers := rfl
@[simp] theorem clearErr_rng (s : State) :
    (s.clearErr).rng = s.rng := rfl
@[simp] theorem clearErr_rngCount (s : State) :
    (s.clearErr).rngCount = s.rngCount := rfl
@[simp] theorem clearErr_trace (s : State) :
    (s.clearErr).trace = s.trace := rfl

/-! `accept`. -/

@[simp] theorem accept_v (s : State) (d : Word) :
    (s.accept d).v = s.v := rfl
@[simp] theorem accept_c (s : State) (d : Word) :
    (s.accept d).c = s.c := rfl
@[simp] theorem accept_flags (s : State) (d : Word) :
    (s.accept d).flags = s.flags := rfl
@[simp] theorem accept_busy (s : State) (d : Word) :
    (s.accept d).busy = true := rfl
@[simp] theorem accept_done (s : State) (d : Word) :
    (s.accept d).done = false := rfl
@[simp] theorem accept_fatal (s : State) (d : Word) :
    (s.accept d).fatal = s.fatal := rfl
@[simp] theorem accept_cmd (s : State) (d : Word) :
    (s.accept d).cmd = d := rfl
@[simp] theorem accept_err (s : State) (d : Word) :
    (s.accept d).err = s.err := rfl
@[simp] theorem accept_inten (s : State) (d : Word) :
    (s.accept d).inten = s.inten := rfl
@[simp] theorem accept_params (s : State) (d : Word) :
    (s.accept d).params = s.params := rfl
@[simp] theorem accept_events (s : State) (d : Word) :
    (s.accept d).events = s.events := rfl
@[simp] theorem accept_answers (s : State) (d : Word) :
    (s.accept d).answers = s.answers := rfl
@[simp] theorem accept_rng (s : State) (d : Word) :
    (s.accept d).rng = s.rng := rfl
@[simp] theorem accept_rngCount (s : State) (d : Word) :
    (s.accept d).rngCount = s.rngCount := rfl
@[simp] theorem accept_trace (s : State) (d : Word) :
    (s.accept d).trace = s.trace := rfl

/-! `answer`. -/

@[simp] theorem answer_v (s : State) (a : BusAnswer) :
    (s.answer a).v = s.v := rfl
@[simp] theorem answer_c (s : State) (a : BusAnswer) :
    (s.answer a).c = s.c := rfl
@[simp] theorem answer_flags (s : State) (a : BusAnswer) :
    (s.answer a).flags = s.flags := rfl
@[simp] theorem answer_busy (s : State) (a : BusAnswer) :
    (s.answer a).busy = s.busy := rfl
@[simp] theorem answer_done (s : State) (a : BusAnswer) :
    (s.answer a).done = s.done := rfl
@[simp] theorem answer_fatal (s : State) (a : BusAnswer) :
    (s.answer a).fatal = s.fatal := rfl
@[simp] theorem answer_cmd (s : State) (a : BusAnswer) :
    (s.answer a).cmd = s.cmd := rfl
@[simp] theorem answer_err (s : State) (a : BusAnswer) :
    (s.answer a).err = s.err := rfl
@[simp] theorem answer_inten (s : State) (a : BusAnswer) :
    (s.answer a).inten = s.inten := rfl
@[simp] theorem answer_params (s : State) (a : BusAnswer) :
    (s.answer a).params = s.params := rfl
@[simp] theorem answer_events (s : State) (a : BusAnswer) :
    (s.answer a).events = s.events := rfl
@[simp] theorem answer_answers (s : State) (a : BusAnswer) :
    (s.answer a).answers = a :: s.answers := rfl
@[simp] theorem answer_rng (s : State) (a : BusAnswer) :
    (s.answer a).rng = s.rng := rfl
@[simp] theorem answer_rngCount (s : State) (a : BusAnswer) :
    (s.answer a).rngCount = s.rngCount := rfl
@[simp] theorem answer_trace (s : State) (a : BusAnswer) :
    (s.answer a).trace = s.trace := rfl

/-! `resetBlock`. -/

@[simp] theorem resetBlock_v (s : State) :
    (s.resetBlock).v = State.reset.v := rfl
@[simp] theorem resetBlock_c (s : State) :
    (s.resetBlock).c = State.reset.c := rfl
@[simp] theorem resetBlock_flags (s : State) :
    (s.resetBlock).flags = State.reset.flags := rfl
@[simp] theorem resetBlock_busy (s : State) :
    (s.resetBlock).busy = State.reset.busy := rfl
@[simp] theorem resetBlock_done (s : State) :
    (s.resetBlock).done = State.reset.done := rfl
@[simp] theorem resetBlock_fatal (s : State) :
    (s.resetBlock).fatal = State.reset.fatal := rfl
@[simp] theorem resetBlock_cmd (s : State) :
    (s.resetBlock).cmd = State.reset.cmd := rfl
@[simp] theorem resetBlock_err (s : State) :
    (s.resetBlock).err = State.reset.err := rfl
@[simp] theorem resetBlock_inten (s : State) :
    (s.resetBlock).inten = State.reset.inten := rfl
@[simp] theorem resetBlock_params (s : State) :
    (s.resetBlock).params = s.params := rfl
@[simp] theorem resetBlock_events (s : State) :
    (s.resetBlock).events = s.events := rfl
@[simp] theorem resetBlock_answers (s : State) :
    (s.resetBlock).answers = s.answers := rfl
@[simp] theorem resetBlock_rng (s : State) :
    (s.resetBlock).rng = s.rng := rfl
@[simp] theorem resetBlock_rngCount (s : State) :
    (s.resetBlock).rngCount = s.rngCount := rfl
@[simp] theorem resetBlock_trace (s : State) :
    (s.resetBlock).trace = State.reset.trace := rfl

/-! `write`. -/

@[simp] theorem write_v {w : Nat} (s : State) (i : VIdx) (form : Form) (cx : CIdx) (a : Limbs w) :
    (s.write i form cx a).v = s.v.set i (mkReg form cx a) := rfl
@[simp] theorem write_c {w : Nat} (s : State) (i : VIdx) (form : Form) (cx : CIdx) (a : Limbs w) :
    (s.write i form cx a).c = s.c := rfl
@[simp] theorem write_flags {w : Nat} (s : State) (i : VIdx) (form : Form) (cx : CIdx) (a : Limbs w) :
    (s.write i form cx a).flags = s.flags := rfl
@[simp] theorem write_busy {w : Nat} (s : State) (i : VIdx) (form : Form) (cx : CIdx) (a : Limbs w) :
    (s.write i form cx a).busy = s.busy := rfl
@[simp] theorem write_done {w : Nat} (s : State) (i : VIdx) (form : Form) (cx : CIdx) (a : Limbs w) :
    (s.write i form cx a).done = s.done := rfl
@[simp] theorem write_fatal {w : Nat} (s : State) (i : VIdx) (form : Form) (cx : CIdx) (a : Limbs w) :
    (s.write i form cx a).fatal = s.fatal := rfl
@[simp] theorem write_cmd {w : Nat} (s : State) (i : VIdx) (form : Form) (cx : CIdx) (a : Limbs w) :
    (s.write i form cx a).cmd = s.cmd := rfl
@[simp] theorem write_err {w : Nat} (s : State) (i : VIdx) (form : Form) (cx : CIdx) (a : Limbs w) :
    (s.write i form cx a).err = s.err := rfl
@[simp] theorem write_inten {w : Nat} (s : State) (i : VIdx) (form : Form) (cx : CIdx) (a : Limbs w) :
    (s.write i form cx a).inten = s.inten := rfl
@[simp] theorem write_params {w : Nat} (s : State) (i : VIdx) (form : Form) (cx : CIdx) (a : Limbs w) :
    (s.write i form cx a).params = s.params := rfl
@[simp] theorem write_events {w : Nat} (s : State) (i : VIdx) (form : Form) (cx : CIdx) (a : Limbs w) :
    (s.write i form cx a).events = s.events := rfl
@[simp] theorem write_answers {w : Nat} (s : State) (i : VIdx) (form : Form) (cx : CIdx) (a : Limbs w) :
    (s.write i form cx a).answers = s.answers := rfl
@[simp] theorem write_rng {w : Nat} (s : State) (i : VIdx) (form : Form) (cx : CIdx) (a : Limbs w) :
    (s.write i form cx a).rng = s.rng := rfl
@[simp] theorem write_rngCount {w : Nat} (s : State) (i : VIdx) (form : Form) (cx : CIdx) (a : Limbs w) :
    (s.write i form cx a).rngCount = s.rngCount := rfl
@[simp] theorem write_trace {w : Nat} (s : State) (i : VIdx) (form : Form) (cx : CIdx) (a : Limbs w) :
    (s.write i form cx a).trace = s.trace := rfl

/-! `writePoint`. -/

@[simp] theorem writePoint_c {w : Nat} (s : State) (i : VIdx) (cx : CIdx) (p : Point w) :
    (s.writePoint i cx p).c = s.c := rfl
@[simp] theorem writePoint_flags {w : Nat} (s : State) (i : VIdx) (cx : CIdx) (p : Point w) :
    (s.writePoint i cx p).flags = s.flags := rfl
@[simp] theorem writePoint_busy {w : Nat} (s : State) (i : VIdx) (cx : CIdx) (p : Point w) :
    (s.writePoint i cx p).busy = s.busy := rfl
@[simp] theorem writePoint_done {w : Nat} (s : State) (i : VIdx) (cx : CIdx) (p : Point w) :
    (s.writePoint i cx p).done = s.done := rfl
@[simp] theorem writePoint_fatal {w : Nat} (s : State) (i : VIdx) (cx : CIdx) (p : Point w) :
    (s.writePoint i cx p).fatal = s.fatal := rfl
@[simp] theorem writePoint_cmd {w : Nat} (s : State) (i : VIdx) (cx : CIdx) (p : Point w) :
    (s.writePoint i cx p).cmd = s.cmd := rfl
@[simp] theorem writePoint_err {w : Nat} (s : State) (i : VIdx) (cx : CIdx) (p : Point w) :
    (s.writePoint i cx p).err = s.err := rfl
@[simp] theorem writePoint_inten {w : Nat} (s : State) (i : VIdx) (cx : CIdx) (p : Point w) :
    (s.writePoint i cx p).inten = s.inten := rfl
@[simp] theorem writePoint_params {w : Nat} (s : State) (i : VIdx) (cx : CIdx) (p : Point w) :
    (s.writePoint i cx p).params = s.params := rfl
@[simp] theorem writePoint_events {w : Nat} (s : State) (i : VIdx) (cx : CIdx) (p : Point w) :
    (s.writePoint i cx p).events = s.events := rfl
@[simp] theorem writePoint_answers {w : Nat} (s : State) (i : VIdx) (cx : CIdx) (p : Point w) :
    (s.writePoint i cx p).answers = s.answers := rfl
@[simp] theorem writePoint_rng {w : Nat} (s : State) (i : VIdx) (cx : CIdx) (p : Point w) :
    (s.writePoint i cx p).rng = s.rng := rfl
@[simp] theorem writePoint_rngCount {w : Nat} (s : State) (i : VIdx) (cx : CIdx) (p : Point w) :
    (s.writePoint i cx p).rngCount = s.rngCount := rfl
@[simp] theorem writePoint_trace {w : Nat} (s : State) (i : VIdx) (cx : CIdx) (p : Point w) :
    (s.writePoint i cx p).trace = s.trace := rfl

/-! `drawRng`. -/

@[simp] theorem drawRng_v (s : State) : s.drawRng.2.v = s.v := by
  unfold State.drawRng; split <;> rfl
@[simp] theorem drawRng_c (s : State) : s.drawRng.2.c = s.c := by
  unfold State.drawRng; split <;> rfl
@[simp] theorem drawRng_flags (s : State) : s.drawRng.2.flags = s.flags := by
  unfold State.drawRng; split <;> rfl
@[simp] theorem drawRng_busy (s : State) : s.drawRng.2.busy = s.busy := by
  unfold State.drawRng; split <;> rfl
@[simp] theorem drawRng_done (s : State) : s.drawRng.2.done = s.done := by
  unfold State.drawRng; split <;> rfl
@[simp] theorem drawRng_fatal (s : State) : s.drawRng.2.fatal = s.fatal := by
  unfold State.drawRng; split <;> rfl
@[simp] theorem drawRng_cmd (s : State) : s.drawRng.2.cmd = s.cmd := by
  unfold State.drawRng; split <;> rfl
@[simp] theorem drawRng_err (s : State) : s.drawRng.2.err = s.err := by
  unfold State.drawRng; split <;> rfl
@[simp] theorem drawRng_inten (s : State) : s.drawRng.2.inten = s.inten := by
  unfold State.drawRng; split <;> rfl
@[simp] theorem drawRng_params (s : State) : s.drawRng.2.params = s.params := by
  unfold State.drawRng; split <;> rfl
@[simp] theorem drawRng_events (s : State) : s.drawRng.2.events = s.events := by
  unfold State.drawRng; split <;> rfl
@[simp] theorem drawRng_answers (s : State) : s.drawRng.2.answers = s.answers := by
  unfold State.drawRng; split <;> rfl
@[simp] theorem drawRng_trace (s : State) : s.drawRng.2.trace = s.trace := by
  unfold State.drawRng; split <;> rfl

/-- What a request on the randomness port does: the answer is the first scripted one or the free value, and it counts. -/
theorem drawRng_eq (s : State) :
    s.drawRng = (s.rng.headD (Config.rngAnswer s.rngCount),
      { s with rng := s.rng.tail, rngCount := s.rngCount + 1 }) := by
  obtain ⟨v, c, flags, busy, done, fatal, cmd, err, inten, params, events, answers, rng, rngCount, trace⟩ := s
  cases rng <;> rfl

/-! Registers and slots. -/

/-- A register after `setReg`: the one written, every other as before. -/
theorem reg_setReg (s : State) (i j : VIdx) (r : VReg) :
    (s.setReg i r).reg j = if j = i then r else s.reg j := by
  by_cases h : j = i
  · subst h; simp [State.reg]
  · simp [State.reg, h, Fin.val_inj, Ne.symm h]

@[simp] theorem reg_setReg_self (s : State) (i : VIdx) (r : VReg) : (s.setReg i r).reg i = r := by
  simp [reg_setReg]

theorem reg_setReg_ne (s : State) {i j : VIdx} (r : VReg) (h : j ≠ i) : (s.setReg i r).reg j = s.reg j := by
  simp [reg_setReg, h]

/-- A slot after `setSlot`: the one written, every other as before. -/
theorem slot_setSlot (s : State) (i j : CIdx) (x : Slot) :
    (s.setSlot i x).slot j = if j = i then x else s.slot j := by
  by_cases h : j = i
  · subst h; simp [State.slot]
  · simp [State.slot, h, Fin.val_inj, Ne.symm h]

@[simp] theorem slot_setSlot_self (s : State) (k : CIdx) (x : Slot) : (s.setSlot k x).slot k = x := by
  simp [slot_setSlot]

theorem slot_setSlot_ne (s : State) {i j : CIdx} (x : Slot) (h : j ≠ i) : (s.setSlot i x).slot j = s.slot j := by
  simp [slot_setSlot, h]

/-- A register after `clearWhere`: cleared where the predicate holds, else as before. -/
@[simp] theorem reg_clearWhere (s : State) (p : VReg → Bool) (j : VIdx) :
    (s.clearWhere p).reg j = if p (s.reg j) then VReg.cleared else s.reg j := by
  simp only [State.reg, State.clearWhere, Fin.getElem_fin, Vector.getElem_map]
  rfl

/-- A register after `write`. -/
theorem reg_write {w : Nat} (s : State) (i j : VIdx) (form : Form) (cx : CIdx) (a : Limbs w) :
    (s.write i form cx a).reg j = if j = i then mkReg form cx a else s.reg j := reg_setReg s i j _

/-- A register after `writePoint`: the triple at the base, every other as before. -/
theorem reg_writePoint {w : Nat} (s : State) (b j : VIdx) (cx : CIdx) (p : Point w) :
    (s.writePoint b cx p).reg j =
      if j = b + 2 then mkReg .pz cx p.z else if j = b + 1 then mkReg .py cx p.y
      else if j = b then mkReg .px cx p.x else s.reg j := by
  simp [State.writePoint, reg_write]

@[simp] theorem reg_zeroizeAll (s : State) (j : VIdx) : s.zeroizeAll.reg j = VReg.cleared := by
  simp [State.reg]

@[simp] theorem slot_zeroizeAll (s : State) (k : CIdx) : s.zeroizeAll.slot k = Slot.empty := by
  simp [State.slot]

@[simp] theorem reg_reset (j : VIdx) : State.reset.reg j = VReg.cleared := by
  simp [State.reg, State.reset]

@[simp] theorem slot_reset (k : CIdx) : State.reset.slot k = Slot.empty := by
  simp [State.slot, State.reset]

@[simp] theorem slot_setReg (s : State) (i : VIdx) (r : VReg) (k : CIdx) :
    (s.setReg i r).slot k = s.slot k := rfl
@[simp] theorem reg_setSlot (s : State) (k : CIdx) (x : Slot) (j : VIdx) :
    (s.setSlot k x).reg j = s.reg j := rfl
@[simp] theorem slot_clearWhere (s : State) (p : VReg → Bool) (k : CIdx) :
    (s.clearWhere p).slot k = s.slot k := rfl
@[simp] theorem slot_setC (s : State) (b : Bool) (k : CIdx) :
    (setC s b).slot k = s.slot k := rfl
@[simp] theorem reg_setC (s : State) (b : Bool) (j : VIdx) :
    (setC s b).reg j = s.reg j := rfl
@[simp] theorem slot_setZ (s : State) (b : Bool) (k : CIdx) :
    (setZ s b).slot k = s.slot k := rfl
@[simp] theorem reg_setZ (s : State) (b : Bool) (j : VIdx) :
    (setZ s b).reg j = s.reg j := rfl
@[simp] theorem slot_setCmp (s : State) (r : Cmp) (k : CIdx) :
    (setCmp s r).slot k = s.slot k := rfl
@[simp] theorem reg_setCmp (s : State) (r : Cmp) (j : VIdx) :
    (setCmp s r).reg j = s.reg j := rfl
@[simp] theorem slot_setInf (s : State) (b : Bool) (k : CIdx) :
    (setInf s b).slot k = s.slot k := rfl
@[simp] theorem reg_setInf (s : State) (b : Bool) (j : VIdx) :
    (setInf s b).reg j = s.reg j := rfl
@[simp] theorem slot_errorState (e : ErrCode) (tr : List TraceEvent) (s : State) (k : CIdx) :
    (errorState e tr s).slot k = s.slot k := rfl
@[simp] theorem reg_errorState (e : ErrCode) (tr : List TraceEvent) (s : State) (j : VIdx) :
    (errorState e tr s).reg j = s.reg j := rfl
@[simp] theorem slot_clearErr (s : State) (k : CIdx) :
    (s.clearErr).slot k = s.slot k := rfl
@[simp] theorem reg_clearErr (s : State) (j : VIdx) :
    (s.clearErr).reg j = s.reg j := rfl
@[simp] theorem slot_accept (s : State) (d : Word) (k : CIdx) :
    (s.accept d).slot k = s.slot k := rfl
@[simp] theorem reg_accept (s : State) (d : Word) (j : VIdx) :
    (s.accept d).reg j = s.reg j := rfl
@[simp] theorem slot_answer (s : State) (a : BusAnswer) (k : CIdx) :
    (s.answer a).slot k = s.slot k := rfl
@[simp] theorem reg_answer (s : State) (a : BusAnswer) (j : VIdx) :
    (s.answer a).reg j = s.reg j := rfl
@[simp] theorem slot_write {w : Nat} (s : State) (i : VIdx) (form : Form) (cx : CIdx) (a : Limbs w) (k : CIdx) :
    (s.write i form cx a).slot k = s.slot k := rfl
@[simp] theorem slot_writePoint {w : Nat} (s : State) (i : VIdx) (cx : CIdx) (p : Point w) (k : CIdx) :
    (s.writePoint i cx p).slot k = s.slot k := rfl

end Sys2Proof.Machine
end

