-- ==== Sys2Proof/Laws/Ops.lean ====
section
/-! SUPPORT. What each shared operation over outcomes can do: completion, completion with an error, a check, the
checks of a family, one host access, one step. -/

namespace Sys2Proof.Machine

@[simp] theorem complete_eq_next (tr : List TraceEvent) (s t : State) :
    complete tr s = .next t ↔ t = { s with busy := false, done := true, trace := tr } := by
  simp [complete, eq_comm]

@[simp] theorem raise_eq_next (e : ErrCode) (tr : List TraceEvent) (s t : State) :
    raise e tr s = .next t ↔ t = errorState e tr s := by
  simp [raise, eq_comm]

@[simp] theorem require_true (e : ErrCode) (tr : List TraceEvent) (s : State) (rest : StepResult) :
    require true e tr s rest = rest := rfl

@[simp] theorem require_false (e : ErrCode) (tr : List TraceEvent) (s : State) (rest : StepResult) :
    require false e tr s rest = raise e tr s := rfl

/-- All that a check can do: it holds and the rest answers, or it fails and the command ends with its code. -/
theorem require_eq_next (ok : Bool) (e : ErrCode) (tr : List TraceEvent) (s t : State) (rest : StepResult) :
    require ok e tr s rest = .next t ↔ (ok = true ∧ rest = .next t) ∨ (ok = false ∧ t = errorState e tr s) := by
  cases ok <;> simp

/-- All that the checks of ADD and SUB can do. -/
theorem addSubChecks_eq_next (ra rb : VIdx) (s t : State) (rest : StepResult) :
    addSubChecks ra rb s rest = .next t ↔
      ((isValid s ra && isValid s rb) = true ∧ (isStd s ra && isStd s rb) = true ∧ sameLen s ra rb = true ∧
        rest = .next t) ∨
      ((isValid s ra && isValid s rb) = false ∧ t = errorState .eInvalidReg [] s) ∨
      ((isValid s ra && isValid s rb) = true ∧ (isStd s ra && isStd s rb) = false ∧ t = errorState .eForm [] s) ∨
      ((isValid s ra && isValid s rb) = true ∧ (isStd s ra && isStd s rb) = true ∧ sameLen s ra rb = false ∧
        t = errorState .eLen [] s) := by
  simp only [addSubChecks, require_eq_next]
  generalize (isValid s ra && isValid s rb) = a, (isStd s ra && isStd s rb) = b, sameLen s ra rb = c
  cases a <;> cases b <;> cases c <;> simp

/-- All that the checks of SEL and CSWAP can do. -/
theorem selectChecks_eq_next (ra rb : VIdx) (cond : BitVec 4) (s t : State) (rest : StepResult) :
    selectChecks ra rb cond s rest = .next t ↔
      let valid := isValid s ra && isValid s rb
      let form := isSelectable s ra && isSelectable s rb && sameForm s ra rb
      (condAssigned cond = true ∧ valid = true ∧ form = true ∧ sameLen s ra rb = true ∧ rest = .next t) ∨
      (condAssigned cond = false ∧ t = errorState .eIllegal [] s) ∨
      (condAssigned cond = true ∧ valid = false ∧ t = errorState .eInvalidReg [] s) ∨
      (condAssigned cond = true ∧ valid = true ∧ form = false ∧ t = errorState .eForm [] s) ∨
      (condAssigned cond = true ∧ valid = true ∧ form = true ∧ sameLen s ra rb = false ∧
        t = errorState .eLen [] s) := by
  simp only [selectChecks, require_eq_next]
  generalize condAssigned cond = a, (isValid s ra && isValid s rb) = b,
    (isSelectable s ra && isSelectable s rb && sameForm s ra rb) = c, sameLen s ra rb = d
  cases a <;> cases b <;> cases c <;> cases d <;> simp

/-- An access of another width than four bytes is refused. -/
theorem busRead_width (s : State) (off : Nat) {bytes : Nat} (h : bytes ≠ 4) : busRead s off bytes = none := by
  simp [busRead, h]

theorem busWrite_width (s : State) (off : Nat) {bytes : Nat} (d : Word) (h : bytes ≠ 4) :
    busWrite s off bytes d = none := by
  simp [busWrite, h]

/-- A read of four bytes, once the register is known. -/
theorem busRead_of_locate (s : State) {off : Nat} {r : WinReg} (h : locate off = some r) :
    busRead s off 4 = if readAllowed s.condition r then readReg s r else none := by
  simp [busRead, h]

/-- A write of four bytes, once the register is known. -/
theorem busWrite_of_locate (s : State) {off : Nat} (d : Word) {r : WinReg} (h : locate off = some r) :
    busWrite s off 4 d = if writeAllowed s.condition r then writeReg s d r else none := by
  simp [busWrite, h]

theorem condition_busy {s : State} (h : s.busy = true) : s.condition = .busy := by simp [State.condition, h]

theorem condition_fatal {s : State} (h : s.busy = false) (h' : s.fatal = true) : s.condition = .fatal := by
  simp [State.condition, h, h']

theorem condition_errpend {s : State} (h : s.busy = false) (h' : s.fatal = false) (h'' : s.err ≠ none) :
    s.condition = .errpend := by
  simp [State.condition, h, h', Option.isSome_iff_ne_none, h'']

theorem condition_idle {s : State} (h : s.busy = false) (h' : s.fatal = false) (h'' : s.err = none) :
    s.condition = .idle := by
  simp [State.condition, h, h', h'']

/-- All that an access on the bus can do: from the base on it is the access at its offset, below it is refused. -/
theorem busAccess_read (s : State) (addr bytes : Nat) :
    busAccess s (.read addr bytes) =
      if s.params.base ≤ addr then hostAccess s (.read (addr - s.params.base) bytes) else s.answer .buserror := by
  by_cases h : s.params.base ≤ addr <;> simp [busAccess, Access.toWindow, windowOffset, h]

theorem busAccess_write (s : State) (addr bytes : Nat) (d : Word) :
    busAccess s (.write addr bytes d) =
      if s.params.base ≤ addr then hostAccess s (.write (addr - s.params.base) bytes d) else s.answer .buserror := by
  by_cases h : s.params.base ≤ addr <;> simp [busAccess, Access.toWindow, windowOffset, h]

/-- No register stands at or above 0x4000 (20_memory.md R61). -/
theorem locate_of_le {off : Nat} (h : 0x4000 ≤ off) : locate off = none := by
  have h1 : ¬ off < 0x24 := by omega
  have h2 : ¬ off < 0x80 := by omega
  have h3 : ¬ off < 0x90 := by omega
  have h4 : ¬ off < 0x4000 := by omega
  simp [locate, h1, h2, h3, h4]

/-- One step, by the head of the list of events. -/
theorem step_of_events_nil {s : State} (h : s.events = []) : step s = sequencerTurn s := by simp [step, nextTurn, h]

theorem step_of_events_cons {s : State} {e : Event} {rest : List Event} (h : s.events = e :: rest) :
    step s = takeEvent { s with events := rest } e := by
  simp [step, nextTurn, h]

end Sys2Proof.Machine
end

