-- ==== Sys2Proof/Laws/PerInstr.lean ====
section
/-! SUPPORT. Facts about every command as syntax, one lemma per constructor. -/

/-- The opcode of a command's word is the one of the command's row in 30_encoding.md R96, whose mask covers all of it. -/
def Sys2Proof.Laws.OpField.Statement (i : Sys2Proof.Instr) : Prop :=
  ∃ r ∈ Sys2Proof.opcodeTable, r.mnemonic = Sys2Proof.mnemonicOf i ∧
    r.pattern.extractLsb' 24 8 = (Sys2Proof.encodeFields i).op ∧ r.mask.extractLsb' 24 8 = 255#8

namespace Sys2Proof.Laws.OpField

theorem nop : Statement .nop :=
  ⟨⟨"NOP", 0x01000000, 0xFFFFFFFF⟩, by decide, rfl, rfl, rfl⟩

theorem zeroize : Statement .zeroize :=
  ⟨⟨"ZEROIZE", 0x0F000000, 0xFFFFFFFF⟩, by decide, rfl, rfl, rfl⟩

theorem add (rd ra rb : VIdx) : Statement (.add rd ra rb) :=
  ⟨⟨"ADD", 0x10000000, 0xFF000FFF⟩, by decide, rfl, rfl, rfl⟩

theorem sub (rd ra rb : VIdx) : Statement (.sub rd ra rb) :=
  ⟨⟨"SUB", 0x11000000, 0xFF000FFF⟩, by decide, rfl, rfl, rfl⟩

theorem cmp (ra rb : VIdx) : Statement (.cmp ra rb) :=
  ⟨⟨"CMP", 0x12000000, 0xFFF00FFF⟩, by decide, rfl, rfl, rfl⟩

theorem iszero (ra : VIdx) : Statement (.iszero ra) :=
  ⟨⟨"ISZERO", 0x13000000, 0xFFF0FFFF⟩, by decide, rfl, rfl, rfl⟩

theorem sel (rd ra rb : VIdx) (cond : BitVec 4) : Statement (.sel rd ra rb cond) :=
  ⟨⟨"SEL", 0x20000000, 0xFF000FF0⟩, by decide, rfl, rfl, rfl⟩

theorem cswap (ra rb : VIdx) (cond : BitVec 4) : Statement (.cswap ra rb cond) :=
  ⟨⟨"CSWAP", 0x21000000, 0xFFF00FF0⟩, by decide, rfl, rfl, rfl⟩

theorem ctxload (ra : VIdx) (cx : CIdx) : Statement (.ctxload ra cx) :=
  ⟨⟨"CTXLOAD", 0x30000000, 0xFFF0FF3F⟩, by decide, rfl, rfl, rfl⟩

theorem tomont (rd ra : VIdx) (cx : CIdx) : Statement (.tomont rd ra cx) :=
  ⟨⟨"TOMONT", 0x31000000, 0xFF00FF3F⟩, by decide, rfl, rfl, rfl⟩

theorem montmul (rd ra rb : VIdx) (cx : CIdx) : Statement (.montmul rd ra rb cx) :=
  ⟨⟨"MONTMUL", 0x32000000, 0xFF000F3F⟩, by decide, rfl, rfl, rfl⟩

theorem montsqr (rd ra : VIdx) (cx : CIdx) : Statement (.montsqr rd ra cx) :=
  ⟨⟨"MONTSQR", 0x33000000, 0xFF00FF3F⟩, by decide, rfl, rfl, rfl⟩

theorem frommont (rd ra : VIdx) (cx : CIdx) : Statement (.frommont rd ra cx) :=
  ⟨⟨"FROMMONT", 0x34000000, 0xFF00FF3F⟩, by decide, rfl, rfl, rfl⟩

theorem modexp (rd ra rb : VIdx) (cx : CIdx) : Statement (.modexp rd ra rb cx) :=
  ⟨⟨"MODEXP", 0x40000000, 0xFF000F3F⟩, by decide, rfl, rfl, rfl⟩

theorem modexpb (rd ra rb rc : VIdx) (cx : CIdx) : Statement (.modexpb rd ra rb rc cx) :=
  ⟨⟨"MODEXPB", 0x41000000, 0xFF00003F⟩, by decide, rfl, rfl, rfl⟩

theorem crvload (ra rb rc : VIdx) (cx : CIdx) : Statement (.crvload ra rb rc cx) :=
  ⟨⟨"CRVLOAD", 0x50000000, 0xFFF0003F⟩, by decide, rfl, rfl, rfl⟩

theorem ptload (rd ra rb : VIdx) (cx : CIdx) : Statement (.ptload rd ra rb cx) :=
  ⟨⟨"PTLOAD", 0x51000000, 0xFF000F3F⟩, by decide, rfl, rfl, rfl⟩

theorem ptinf (rd : VIdx) (cx : CIdx) : Statement (.ptinf rd cx) :=
  ⟨⟨"PTINF", 0x52000000, 0xFF0FFF3F⟩, by decide, rfl, rfl, rfl⟩

theorem ptadd (rd ra rb : VIdx) (cx : CIdx) : Statement (.ptadd rd ra rb cx) :=
  ⟨⟨"PTADD", 0x53000000, 0xFF000F3F⟩, by decide, rfl, rfl, rfl⟩

theorem ptdbl (rd ra : VIdx) (cx : CIdx) : Statement (.ptdbl rd ra cx) :=
  ⟨⟨"PTDBL", 0x54000000, 0xFF00FF3F⟩, by decide, rfl, rfl, rfl⟩

theorem ptaff (rd ra rb : VIdx) (cx : CIdx) : Statement (.ptaff rd ra rb cx) :=
  ⟨⟨"PTAFF", 0x55000000, 0xFF000F3F⟩, by decide, rfl, rfl, rfl⟩

theorem scmul (rd ra rb : VIdx) (cx : CIdx) (noinf : Bool) : Statement (.scmul rd ra rb cx noinf) :=
  ⟨⟨"SCMUL", 0x60000000, 0xFF000F3E⟩, by decide, rfl, rfl, rfl⟩

end Sys2Proof.Laws.OpField
end

