-- ==== Sys2Proof/Machine/Programs.lean ====
section
/-! DEFINITION. Programs as the spec writes them: assembler syntax (30_encoding.md R98), host accesses (R99),
pseudo-commands (R100), and the host sequence of a signature verification (44_rsa_host_sequences.md R188). Nothing the
machine does uses them. -/

namespace Sys2Proof.Machine

/-! Assembler syntax (R98). -/

/-- A register, a point, a slot. -/
def vName (r : VIdx) : String := "v" ++ toString r.val
def pName (r : VIdx) : String := "p" ++ toString r.val
def cName (k : CIdx) : String := "c" ++ toString k.val

/-- A condition: the flag selector's name, with `!` where `fn[3]` is set; `always` for `!never`. -/
def condName (cond : BitVec 4) : String :=
  if cond == 14#4 then "always"
  else
    (if cond.getLsbD 3 then "!" else "") ++
      (["c", "z", "lt", "eq", "gt", "inf", "never"].getD (cond.extractLsb' 0 3).toNat "reserved")

/-- A line of assembler text. -/
def asmLine (mnemonic : String) (operands : List String) : String :=
  match operands with
  | [] => mnemonic
  | _ => mnemonic ++ " " ++ String.intercalate ", " operands

/-- The text of a command (R98's table). -/
def asm : Instr → String
  | .nop => asmLine "nop" []
  | .zeroize => asmLine "zeroize" []
  | .add d a b => asmLine "add" [vName d, vName a, vName b]
  | .sub d a b => asmLine "sub" [vName d, vName a, vName b]
  | .cmp a b => asmLine "cmp" [vName a, vName b]
  | .iszero a => asmLine "iszero" [vName a]
  | .sel d a b n => asmLine "sel" [vName d, vName a, vName b, condName n]
  | .cswap a b n => asmLine "cswap" [vName a, vName b, condName n]
  | .ctxload a k => asmLine "ctxload" [cName k, vName a]
  | .tomont d a k => asmLine "tomont" [vName d, vName a, cName k]
  | .montmul d a b k => asmLine "montmul" [vName d, vName a, vName b, cName k]
  | .montsqr d a k => asmLine "montsqr" [vName d, vName a, cName k]
  | .frommont d a k => asmLine "frommont" [vName d, vName a, cName k]
  | .modexp d a b k => asmLine "modexp" [vName d, vName a, vName b, cName k]
  | .modexpb d a b c k => asmLine "modexpb" [vName d, vName a, vName b, vName c, cName k]
  | .crvload a b c k => asmLine "crvload" [cName k, vName a, vName b, vName c]
  | .ptload d a b k => asmLine "ptload" [pName d, vName a, vName b, cName k]
  | .ptinf d k => asmLine "ptinf" [pName d, cName k]
  | .ptadd d a b k => asmLine "ptadd" [pName d, pName a, pName b, cName k]
  | .ptdbl d a k => asmLine "ptdbl" [pName d, pName a, cName k]
  | .ptaff d a b k => asmLine "ptaff" [vName d, vName b, pName a, cName k]
  | .scmul d a b k noinf =>
    asmLine "scmul" ([pName d, pName a, vName b, cName k] ++ if noinf then ["noinf"] else [])

/-! Host accesses (R99). A program is written for a configuration `p`, whose `BASE` its addresses start from. -/

/-- A read of the window's word at `off`, and a write to it. -/
def readAt (p : Params) (off : Nat) : Event := .access (.read (p.base + off) 4)
def writeAt (p : Params) (off : Nat) (d : Word) : Event := .access (.write (p.base + off) 4 d)

/-- `load v<r>, <len>, <value>`: the write of the tag, then of every word. -/
def loadReg (p : Params) (r : VIdx) (len value : Nat) : List Event :=
  writeAt p (0x40 + 4 * r.val) (BitVec.ofNat 32 len) ::
  (List.range (len * p.w / 32)).map fun j =>
    writeAt p (0x2000 + 0x200 * r.val + 4 * j) (BitVec.ofNat 32 (value >>> (32 * j)))

/-- `read v<r>`: the reads of all valid words of a register of `len` limbs. -/
def readRegWords (p : Params) (r : VIdx) (len : Nat) : List Event :=
  (List.range (len * p.w / 32)).map fun j => readAt p (0x2000 + 0x200 * r.val + 4 * j)

/-- A command line: the write to `CMD`, then `wait`; the command completes before the read of `STATUS` that ends it. -/
def issue (p : Params) (i : Instr) : List Event := [writeAt p 0x14 (encode i), .sequencer, readAt p 0x10]

/-! Running a host that looks at what it reads. -/

/-- `f` on the next state; a fault or a refusal stays. -/
def andThen {α : Type} (r : StepResult) (f : State → Host.Outcome α Fault Refusal) : Host.Outcome α Fault Refusal :=
  match r with
  | .next s => f s
  | .fault x => .fault x
  | .refused x => .refused x

/-- The events of a list, one after the other. -/
def drive : List Event → State → StepResult
  | [], s => .next s
  | e :: es, s => andThen (takeEvent s e) (drive es)

/-- What the host reads in `ERR` (0x18) and in `FLAGS` (0x1C); none where the block refuses. -/
def readErr (s : State) : Option Word := busRead s 0x18 4
def readFlags (s : State) : Option Word := busRead s 0x1C 4

/-- How many accesses the block has refused. -/
def refusals (s : State) : Nat := s.answers.count .buserror

/-- The parts of a host sequence in order, `ERR` read after each; it stops at the first after which `ERR` does not read 0,
as R100 says of the first command that ends in error. DESIGN CHOICE: it stops as well at the first part of which an access
is answered `buserror`, a load that is refused among them, since what the host does on `buserror` is open (20_memory.md
R66, log 13). -/
def inSequence (p : Params) : List (List Event) → State → StepResult
  | [], s => .next s
  | part :: parts, s =>
    andThen (drive (part ++ [readAt p 0x18]) s) fun t =>
    if readErr t == some 0 && refusals t == refusals s then inSequence p parts t else .next t

/-! Pseudo-commands (R100). -/

/-- The pseudo-commands that are sequences of commands alone. -/
inductive Pseudo where
  | mov (vd va : VIdx)
  | cteq (va vb : VIdx)
  | modsub (vd va vb vm vt : VIdx)
  | modmul (vd va vb : VIdx) (ck : CIdx) (vt : VIdx)
  | ecmul (vd ve va vb vk : VIdx) (ck : CIdx) (pt : VIdx)
  deriving DecidableEq, Repr

/-- The expansion of a pseudo-command, row by row of R100. -/
def Pseudo.expand : Pseudo → List Instr
  | .mov vd va => [.sel vd va va 14#4]
  | .cteq va vb => [.cmp va vb]
  | .modsub vd va vb vm vt => [.add vt va vm, .sub vt vt vb, .sub vd va vb, .sel vd vt vd 0#4]
  | .modmul vd va vb ck vt => [.tomont vt va ck, .tomont vd vb ck, .montmul vd vt vd ck, .frommont vd vd ck]
  | .ecmul vd ve va vb vk ck pt => [.ptload pt va vb ck, .scmul pt pt vk ck false, .ptaff vd pt ve ck]

/-- A pseudo-command run in a state (R100); at a refused access it stops too (DESIGN CHOICE, log 13). -/
def Pseudo.run (c : Pseudo) (s : State) : StepResult := inSequence s.params (c.expand.map (issue s.params)) s

/-! A host sequence (44_rsa_host_sequences.md R188). -/

/-- What `rsaverify` returns. -/
inductive Verdict where
  | accept
  | reject
  | malformed
  deriving DecidableEq, Repr

/-- The parts of `rsaverify(n, e, s, em)`, each up to a command; `l` is the modulus' length, `le` the exponent's. -/
def rsaVerifyParts (p : Params) (l le n e sig em : Nat) : List (List Event) :=
  [loadReg p 0 l n ++ issue p (.ctxload 0 0),
   loadReg p 1 l sig ++ issue p (.tomont 1 1 0),
   loadReg p 2 le e ++ issue p (.modexp 1 1 2 0),
   issue p (.frommont 1 1 0),
   loadReg p 3 l em ++ issue p (.cmp 1 3)]

/-- The verdict that `FLAGS.EQ` gives. -/
def verdictOf (flags : Word) : Verdict := if flags.getLsbD 3 then .accept else .reject

/-- The end of `rsaverify` where no access was refused: without error the verdict by `FLAGS.EQ`; on E_RANGE, `ERR` cleared and malformed. DESIGN
CHOICE: on any other error (an even modulus, a block that is FATAL) there is no verdict and nothing more is done, since
R188 names E_RANGE alone (log 13). -/
def rsaVerdict (p : Params) (s : State) : Host.Outcome (State × Option Verdict) Fault Refusal :=
  if readErr s == some 0 then
    andThen (drive [readAt p 0x1C] s) fun t => .next (t, (readFlags t).map verdictOf)
  else if readErr s == some 0x210 then
    andThen (drive [writeAt p 0x18 0] s) fun t => .next (t, some .malformed)
  else .next (s, none)

/-- `rsaverify(n, e, s, em)`: the state it leaves and what it returns (R188). DESIGN CHOICE: where an access was refused
(a length `l` or `le` above LMAX, a block that is not in condition IDLE) there is no verdict and nothing more is done, since
R188 is silent on a refused access (log 13). -/
def rsaVerify (l le n e sig em : Nat) (s : State) : Host.Outcome (State × Option Verdict) Fault Refusal :=
  andThen (inSequence s.params (rsaVerifyParts s.params l le n e sig em) s) fun t =>
  if refusals t == refusals s then rsaVerdict s.params t else .next (t, none)

end Sys2Proof.Machine
end

