-- ==== Sys2Proof/Tests/Slice0.lean ====
section
/-! SUPPORT. The model's own tests. Words are written out from the fields of 30_encoding.md R91 and the opcodes of R96,
or are the example words of files 30, 45, 46; expected results are the worked examples of the command rules. Then a
witness for the hypotheses of every statement in Certificates/Slice0/Obligations.lean. -/

open Sys2Proof Sys2Proof.Machine

namespace Sys2Proof.Tests

/-! Helpers. -/

/-- The outcome is a next state that meets `p`. -/
def nextHolds (r : StepResult) (p : State → Bool) : Bool :=
  match r with
  | .next t => p t
  | .fault _ => false
  | .refused _ => false

theorem next_of {r : StepResult} {p : State → Bool} (h : nextHolds r p = true) : ∃ t, r = .next t ∧ p t = true := by
  cases r with
  | next t => exact ⟨t, rfl, h⟩
  | fault f => cases f
  | refused f => simp [nextHolds] at h

/-- The value of a register. -/
def dat (s : State) (i : VIdx) : Nat := (s.reg i).data.toNat

/-- The slot of the worked example of 45_ec_point_adder.md R206. -/
def slot23 : Slot :=
  { cvalid := true, clen := 1, m := 23, one := 12, rr := 6, n0 := 0x1642C859
    kvalid := true, a := 12, b := 2, b3 := 6, ord := 29, ordlen := 1 }

/-- The slot of the worked example of 42_montgomery_multiplier.md R157. -/
def slotBig : Slot :=
  { Slot.empty with cvalid := true, clen := 1, m := 0xFFFFFFFB, one := 5, rr := 25, n0 := 0xCCCCCCCD }

/-- Slot 1 holds the curve over 23 elements, slot 2 the modulus 0xFFFFFFFB; the registers hold standard values, two
Montgomery values of slot 1, the points (0, 2) and (13, 12) of slot 1, and two values of slot 2. -/
def bench : State :=
  { State.reset with
    v := #v[regOf 1 .std 0 23, regOf 1 .std 0 0, regOf 1 .std 0 2, regOf 1 .std 0 5,
            regOf 1 .mont 1 10, regOf 1 .mont 1 7, regOf 1 .px 1 0, regOf 1 .py 1 1,
            regOf 1 .pz 1 12, regOf 1 .px 1 2, regOf 1 .py 1 16, regOf 1 .pz 1 9,
            regOf 1 .std 0 29, regOf 2 .std 0 5, regOf 1 .mont 2 10, regOf 1 .std 0 10]
    c := ((Vector.replicate 4 Slot.empty).set 1 slot23).set 2 slotBig }

/-- `V1 = x`, `V2 = y`, both STD of `n` limbs. -/
def two (n x y : Nat) : State := (State.reset.setReg 1 (regOf n .std 0 x)).setReg 2 (regOf n .std 0 y)

/-- `bench` with a scripted answer of the randomness port, and the period 0xFFFFFFFA in `V13`. -/
def blindBench (a : RngAnswer) : State :=
  { bench.setReg 13 (regOf 1 .std 0 0xFFFFFFFA) with rng := [a] }

/-- The bytes of the worked example of 43_modexp_engine.md R175. -/
def exampleBytes : List Byte := [0xEF, 0xCD, 0xAB, 0x89, 0x67, 0x45, 0x23, 0x01]

/-! Well-formedness: its one check refuses the reserved selector. -/

theorem test_wellFormed_sel : (Instr.sel 3 1 2 7#4).wellFormed = false := by decide
theorem test_wellFormed_sel_inverted : (Instr.sel 3 1 2 15#4).wellFormed = false := by decide
theorem test_wellFormed_cswap : (Instr.cswap 1 2 7#4).wellFormed = false := by decide
theorem test_wellFormed_never : (Instr.sel 3 1 2 6#4).wellFormed = true := by decide

/-! Decoding: `op, rd, ra, rb, rc, cx, fn` written out as bits. -/

theorem test_decode_nop : decode 0b00000001_0000_0000_0000_0000_00_000000#32 = .ok .nop := by decide
theorem test_decode_zeroize : decode 0b00001111_0000_0000_0000_0000_00_000000#32 = .ok .zeroize := by decide
theorem test_decode_add : decode 0b00010000_0011_0001_0010_0000_00_000000#32 = .ok (.add 3 1 2) := by decide
theorem test_decode_sub : decode 0b00010001_1111_1000_0001_0000_00_000000#32 = .ok (.sub 15 8 1) := by decide
theorem test_decode_cmp : decode 0b00010010_0000_0001_0010_0000_00_000000#32 = .ok (.cmp 1 2) := by decide
theorem test_decode_iszero : decode 0b00010011_0000_1001_0000_0000_00_000000#32 = .ok (.iszero 9) := by decide
theorem test_decode_sel :
    decode 0b00100000_0011_0001_0010_0000_00_001010#32 = .ok (.sel 3 1 2 0b1010#4) := by decide
theorem test_decode_cswap :
    decode 0b00100001_0000_0001_0010_0000_00_001001#32 = .ok (.cswap 1 2 0b1001#4) := by decide
theorem test_decode_ctxload : decode 0b00110000_0000_0111_0000_0000_10_000000#32 = .ok (.ctxload 7 2) := by decide
theorem test_decode_tomont : decode 0b00110001_0011_0001_0000_0000_01_000000#32 = .ok (.tomont 3 1 1) := by decide
theorem test_decode_montmul :
    decode 0b00110010_0011_0001_0010_0000_01_000000#32 = .ok (.montmul 3 1 2 1) := by decide
theorem test_decode_montsqr : decode 0b00110011_0011_0001_0000_0000_11_000000#32 = .ok (.montsqr 3 1 3) := by decide
theorem test_decode_frommont : decode 0b00110100_0100_0101_0000_0000_01_000000#32 = .ok (.frommont 4 5 1) := by decide
theorem test_decode_modexp :
    decode 0b01000000_0011_0001_0010_0000_01_000000#32 = .ok (.modexp 3 1 2 1) := by decide
theorem test_decode_modexpb :
    decode 0b01000001_0110_0110_1100_1010_01_000000#32 = .ok (.modexpb 6 6 12 10 1) := by decide
theorem test_decode_crvload : decode 0x50012340#32 = .ok (.crvload 1 2 3 1) := by decide
theorem test_decode_ptload :
    decode 0b01010001_0110_0100_0101_0000_01_000000#32 = .ok (.ptload 6 4 5 1) := by decide
theorem test_decode_ptinf : decode 0b01010010_1101_0000_0000_0000_01_000000#32 = .ok (.ptinf 13 1) := by decide
theorem test_decode_ptadd :
    decode 0b01010011_1100_0110_1001_0000_01_000000#32 = .ok (.ptadd 12 6 9 1) := by decide
theorem test_decode_ptdbl : decode 0b01010100_1001_0110_0000_0000_01_000000#32 = .ok (.ptdbl 9 6 1) := by decide
theorem test_decode_ptaff :
    decode 0b01010101_1100_1001_1101_0000_01_000000#32 = .ok (.ptaff 12 9 13 1) := by decide
theorem test_decode_scmul : decode 0x60963041#32 = .ok (.scmul 9 6 3 1 true) := by decide

/-- 95_test_vectors.md and 30_encoding.md R97: the all-zero word, a non-zero unused field, selector 7. -/
theorem test_decode_illegal :
    decode 0x00000000 = .error .unassignedOp ∧ decode 0x10123100 = .error .unusedField ∧
    decode 0x20312007 = .error .reservedSelector ∧ decode 0x60963042 = .error .unusedField ∧
    decode 0x20312010 = .error .unusedField := by decide

theorem test_encode : encode (.scmul 9 6 3 1 false) = 0x60963040 ∧ encode (.montmul 3 1 2 1) = 0x32312040 := by decide

/-- 30_encoding.md R98, R100; 44_rsa_host_sequences.md R188: example text, an expansion, the words of `rsaverify`. -/
theorem test_asm :
    asm (.montmul 3 1 2 1) = "montmul v3, v1, v2, c1" ∧ asm (.scmul 9 6 3 1 true) = "scmul p9, p6, v3, c1, noinf" ∧
    asm (.ptaff 12 9 13 1) = "ptaff v12, v13, p9, c1" ∧ asm (.sel 3 1 2 10#4) = "sel v3, v1, v2, !lt" := by
  decide +kernel

theorem test_expand : (Pseudo.expand (.mov 3 1)).map encode = [0x2031100E] ∧
    [Instr.ctxload 0 0, .tomont 1 1 0, .modexp 1 1 2 0, .frommont 1 1 0, .cmp 1 3].map encode =
      [0x30000000, 0x31110000, 0x40112000, 0x34110000, 0x12013000] := by decide

/-! The commands, on the worked examples of their rules. -/

/-- 47_system_commands.md R230: from reset, NOP leaves `STATUS` 0x00000002. -/
theorem test_nop :
    nextHolds (step (State.reset.withFetchWord 32 0x01000000)) (fun t => busRead t 0x10 4 == some 2) = true := by
  decide +kernel

/-- 47_system_commands.md R231: after ZEROIZE every tag and `FLAGS` read 0. -/
theorem test_zeroize :
    nextHolds (exec .zeroize bench) (fun t => busRead t 0x58 4 == some 0 && busRead t 0x84 4 == some 0) = true := by
  decide +kernel

/-- 40_limb_adder_subtractor.md R126. -/
theorem test_add : nextHolds (exec (.add 3 1 2) (two 2 0xFFFFFFFFFFFFFFFF 1))
    (fun t => t.reg 3 == regOf 2 .std 0 0 && t.flags.c) = true := by decide +kernel

/-- 40_limb_adder_subtractor.md R127. -/
theorem test_sub : nextHolds (exec (.sub 3 1 2) (two 2 0 1))
    (fun t => t.reg 3 == regOf 2 .std 0 0xFFFFFFFFFFFFFFFF && t.flags.c) = true := by decide +kernel

/-- 40_limb_adder_subtractor.md R128. -/
theorem test_cmp : nextHolds (exec (.cmp 1 2) (two 1 5 7))
    (fun t => t.flags == { Flags.clear with lt := true }) = true := by decide +kernel

/-- 40_limb_adder_subtractor.md R129. -/
theorem test_iszero : nextHolds (exec (.iszero 1) (two 3 0 0)) (fun t => t.flags.z) = true ∧
    nextHolds (exec (.iszero 1) (two 3 (2 ^ 64) 0)) (fun t => !t.flags.z) = true := by decide +kernel

/-- 41_conditional_select.md R143. -/
theorem test_sel :
    nextHolds (exec (.sel 3 1 2 0#4) (setC (two 1 0x11111111 0x22222222) true)) (fun t => dat t 3 == 0x11111111) = true ∧
    nextHolds (exec (.sel 3 1 2 8#4) (setC (two 1 0x11111111 0x22222222) true)) (fun t => dat t 3 == 0x22222222) = true := by
  decide +kernel

/-- 41_conditional_select.md R144. -/
theorem test_cswap : nextHolds (exec (.cswap 1 2 9#4) (two 1 1 2)) (fun t => dat t 1 == 2 && dat t 2 == 1) = true := by
  decide +kernel

/-- 42_montgomery_multiplier.md R157. -/
theorem test_ctxload : nextHolds (exec (.ctxload 1 2) (two 1 0xFFFFFFFB 0)) (fun t => t.slot 2 == slotBig) = true := by
  decide +kernel

/-- 42_montgomery_multiplier.md R157: zero is an even modulus. -/
theorem test_ctxload_even : nextHolds (exec (.ctxload 1 2) bench) (fun t => errWord t.err == 0x107 && t.fatal) = true := by
  decide +kernel

/-- 42_montgomery_multiplier.md R158. -/
theorem test_tomont : nextHolds (exec (.tomont 3 2 2) bench) (fun t => t.reg 3 == regOf 1 .mont 2 10) = true := by
  decide +kernel

theorem test_tomont_range : nextHolds (exec (.tomont 3 1 2) (bench.setReg 1 (regOf 1 .std 0 0xFFFFFFFB)))
    (fun t => errWord t.err == 0x210 && !t.fatal) = true := by decide +kernel

/-- 42_montgomery_multiplier.md R159. -/
theorem test_montmul : nextHolds (exec (.montmul 3 14 1 2) (bench.setReg 1 (regOf 1 .mont 2 15)))
    (fun t => t.reg 3 == regOf 1 .mont 2 30) = true := by decide +kernel

/-- 42_montgomery_multiplier.md R160. -/
theorem test_montsqr : nextHolds (exec (.montsqr 3 14 2) bench) (fun t => dat t 3 == 20) = true := by decide +kernel

/-- 42_montgomery_multiplier.md R161. -/
theorem test_frommont : nextHolds (exec (.frommont 14 14 2) (bench.setReg 14 (regOf 1 .mont 2 30)))
    (fun t => t.reg 14 == regOf 1 .std 0 6) = true := by decide +kernel

/-- 43_modexp_engine.md R173. -/
theorem test_modexp : nextHolds (exec (.modexp 3 14 15 2) bench)
    (fun t => dat t 3 == 5120 && t.trace.count (.mmul 1) == 54 && t.trace.count (.lsel 1) == 128) = true := by
  decide +kernel

/-- 43_modexp_engine.md R175. -/
theorem test_modexpb : nextHolds (exec (.modexpb 3 14 15 13 2) (blindBench (.ok exampleBytes)))
    (fun t => dat t 3 == 5120) = true := by decide +kernel

/-- 60_exceptions.md R263. -/
theorem test_modexpb_fail : nextHolds (exec (.modexpb 3 14 15 13 2) (blindBench .fail))
    (fun t => errWord t.err == 0x320 && !t.fatal && t.reg 3 == bench.reg 3) = true := by decide +kernel

/-- 45_ec_point_adder.md R206. -/
theorem test_crvload :
    nextHolds (exec (.crvload 1 2 3 1)
      (((bench.setReg 1 (regOf 1 .std 0 1)).setReg 2 (regOf 1 .std 0 4)).setReg 3 (regOf 1 .std 0 29)))
      (fun t => t.slot 1 == slot23 && busRead t 0x84 4 == some 0xC0010001 && t.reg 6 == VReg.cleared) = true := by
  decide +kernel

/-- 45_ec_point_adder.md R207. -/
theorem test_ptload : nextHolds (exec (.ptload 9 1 2 1) bench)
    (fun t => t.reg 9 == regOf 1 .px 1 0 && t.reg 10 == regOf 1 .py 1 1 && t.reg 11 == regOf 1 .pz 1 12) = true := by
  decide +kernel

theorem test_ptload_errors :
    nextHolds (exec (.ptload 9 1 2 1) (bench.setReg 2 (regOf 1 .std 0 3))) (fun t => errWord t.err == 0x211) = true ∧
    nextHolds (exec (.ptload 9 0 2 1) bench) (fun t => errWord t.err == 0x210) = true := by decide +kernel

/-- 45_ec_point_adder.md R208. -/
theorem test_ptinf : nextHolds (exec (.ptinf 6 1) bench)
    (fun t => dat t 6 == 0 && dat t 7 == 12 && dat t 8 == 0 && busRead t 0x60 4 == some 0x80140001) = true := by
  decide +kernel

/-- 45_ec_point_adder.md R209. -/
theorem test_ptadd : nextHolds (exec (.ptadd 6 9 6 1) bench)
    (fun t => dat t 6 == 12 && dat t 7 == 14 && dat t 8 == 22) = true := by decide +kernel

theorem test_ptadd_inverse : nextHolds (exec (.ptadd 6 6 9 1)
    (((bench.setReg 9 (regOf 1 .px 1 0)).setReg 10 (regOf 1 .py 1 22)).setReg 11 (regOf 1 .pz 1 12)))
    (fun t => dat t 6 == 0 && dat t 7 == 16 && dat t 8 == 0) = true := by decide +kernel

/-- 45_ec_point_adder.md R210. -/
theorem test_ptdbl : nextHolds (exec (.ptdbl 6 6 1) bench)
    (fun t => dat t 6 == 2 && dat t 7 == 16 && dat t 8 == 9) = true := by decide +kernel

/-- 45_ec_point_adder.md R211. -/
theorem test_ptaff : nextHolds (exec (.ptaff 9 9 10 1) bench)
    (fun t => t.reg 9 == regOf 1 .std 0 13 && t.reg 10 == regOf 1 .std 0 12 && !t.flags.inf) = true := by
  decide +kernel

/-- 46_ecc_scalar_multiplier.md R222. -/
theorem test_scmul : nextHolds (exec (.scmul 6 6 3 1 true) bench)
    (fun t => dat t 6 == 1 && dat t 7 == 16 && dat t 8 == 10) = true := by decide +kernel

theorem test_scmul_range : nextHolds (exec (.scmul 6 6 12 1 true) bench) (fun t => errWord t.err == 0x210) = true := by
  decide +kernel

/-! The window. -/

/-- 10_state.md R36, R37: the identity and the default configuration. -/
theorem test_configuration :
    busRead State.reset 0x00 4 = some 0x52494E47 ∧ busRead State.reset 0x04 4 = some 0x49008020 ∧
    busRead State.reset 0x08 4 = some 0x40 := by decide

/-- 20_memory.md R62: word 1 of `V2` holds bits 63:32. -/
theorem test_data_word : busRead (two 2 0 0x1111222233334444) 0x2404 4 = some 0x11112222 := by decide +kernel

/-- 20_memory.md R64, R72: widths, alignment, holes. -/
theorem test_refused_accesses :
    busRead State.reset 0x10 2 = none ∧ busRead State.reset 0x11 4 = none ∧ busRead State.reset 0x24 4 = none ∧
    busRead State.reset 0x4000 4 = none := by decide

/-- 10_state.md R40, R74: `STATUS` reads BUSY while a command runs, and DONE, ERR, FATAL after a contract violation. -/
theorem test_status :
    busRead (State.reset.accept 0x01000000) 0x10 4 = some 1 ∧
    nextHolds (step (State.reset.withFetchWord 32 0)) (fun t => busRead t 0x10 4 == some 0xE) = true := by decide +kernel

/-- 20_memory.md R60, 95_test_vectors.md section 8: with `BASE` 0x8000, address 0x8004 is `CFG0` and 0xC000 is unmapped. -/
theorem test_base :
    let s := { State.reset with params := { Params.default with base := 0x8000 } }
    (busAccess s (.read 0x8004 4)).answers = [.data 0x49008020] ∧ (busAccess s (.read 0xC000 4)).answers = [.buserror] := by decide +kernel

/-- 70_reset_and_hazards.md R293: the run ends with the last access, so a command that is still to complete there spoils it. -/
theorem test_run_end :
    nextHolds (runEnd { State.reset with events := issue Params.default .nop }) (fun t => !t.busy && t.done) = true ∧
    nextHolds (runEnd { State.reset with events := (issue Params.default .nop).take 2 }) (fun t => t.busy) = true := by
  decide +kernel

/-- 44_rsa_host_sequences.md R188, log 13: with LMAX 2, a load of 3 limbs is refused, there is no verdict, and no command after
the first was issued. -/
theorem test_rsaverify_refused_load :
    (match rsaVerify 3 1 5 3 1 1 { State.reset with params := { Params.default with lmaxBits := 64 } } with
     | .next (t, v) => v == none && t.cmd == encode (.ctxload 0 0)
     | _ => false) = true := by decide +kernel

/-! Witnesses: every statement with hypotheses has inputs that meet them together. -/

theorem bench_legal : LegalParams bench.params := by decide
theorem bench_regs : ∀ i : VIdx, RegOk bench (bench.reg i) := by decide +kernel
theorem bench_slots : ∀ k : CIdx, SlotOk bench.params (bench.slot k) := by decide +kernel
theorem bench_status : StatusOk bench := by decide
theorem bench_inv : Inv bench := ⟨bench_legal, bench_regs, bench_slots, bench_status⟩

/-- `bench` with the command word `w` accepted and `es` to come. -/
def accepted (w : Word) (es : List Event) : State := { bench.accept w with events := es }

/-- `bench` after an error that is recoverable, and after a fatal one. -/
def pending : State := errorState .eRange [] bench
def locked : State := errorState .eLen [] bench

theorem witness_DecodeOfEncode :
    (Instr.sel 15 0 15 6#4).wellFormed = true ∧ (Instr.modexpb 15 15 15 15 3).wellFormed = true := by decide

theorem witness_EncodeOfDecode : decode 0x60FFF0C1 = .ok (.scmul 15 15 15 3 true) := by decide

theorem witness_DecoderAgreesWithOpcodeMap :
    ∃ w : Word, ∃ r ∈ opcodeTable, ∃ q ∈ opcodeTable, w &&& r.mask = r.pattern ∧ w &&& q.mask = q.pattern :=
  ⟨0x01000000, ⟨"NOP", 0x01000000, 0xFFFFFFFF⟩, by decide, ⟨"NOP", 0x01000000, 0xFFFFFFFF⟩, by decide, by decide,
    by decide⟩

/-- `bench` with its window at 0x8000 and an access to come. -/
def based (a : Access) : State := { bench with params := { Params.default with base := 0x8000 }, events := [.access a] }

theorem witness_StepRunsDecodedCommand :
    (∃ s t : State, s.busy = true ∧ decode s.cmd = .ok (.add 3 1 2) ∧ s.events = .sequencer :: [] ∧
      t.busy = true ∧ decode t.cmd = .ok (.add 3 1 2) ∧ t.events = []) ∧
    (bench.busy = false ∧ bench.events = [] ∧ { bench with events := [.sequencer] }.events = .sequencer :: []) ∧
    (∃ off : Nat, (based (.read 0xBFFF 1)).events = .access (.read ((based (.read 0xBFFF 1)).params.base + off) 1) :: []) ∧
    (0x7FFC < (based (.read 0x7FFC 4)).params.base ∧ (based (.read 0xC000 4)).params.base + 0x4000 ≤ 0xC000) :=
  ⟨⟨accepted 0x10312000 [.sequencer], accepted 0x10312000 [], rfl, rfl, rfl, rfl, rfl, rfl⟩, ⟨rfl, rfl, rfl⟩,
    ⟨0x3FFF, rfl⟩, by decide⟩

theorem witness_IllegalWordCompletesWithError :
    ∃ s t : State, (s.busy = true ∧ s.events = [] ∧ decode s.cmd = .error .unassignedOp) ∧
      (t.busy = true ∧ t.events = .sequencer :: [] ∧ decode t.cmd = .error .unassignedOp) :=
  ⟨accepted 0 [], accepted 0 [.sequencer], ⟨rfl, rfl, rfl⟩, rfl, rfl, rfl⟩

theorem witness_CommandAcceptance :
    (∃ s : State, s.busy = false ∧ s.fatal = false ∧ s.err = none) ∧ (∃ s : State, s.busy = true) ∧
    (∃ s : State, s.fatal = true) ∧ (∃ s : State, s.err ≠ none) :=
  ⟨⟨bench, rfl, rfl, rfl⟩, ⟨accepted 0 [], rfl⟩, ⟨locked, rfl⟩, ⟨pending, by decide⟩⟩

theorem witness_AdditionLaw_SubtractionLaw_ZeroTest_Select :
    ∃ a b : Limbs 32, 1 ≤ 32 ∧ a.length = b.length := ⟨[1, 2], [3, 4], by decide, rfl⟩

theorem witness_SelectedFlag : condAssigned 6#4 = true ∧ condAssigned 14#4 = true ∧ condAssigned 13#4 = true := by
  decide

theorem witness_NegatedInverseLaw : ∃ m0 : BitVec 32, 1 ≤ 32 ∧ m0.toNat % 2 = 1 ∧
    (m0.toNat * (0xCCCCCCCD : BitVec 32).toNat + 1) % 2 ^ 32 = 0 := ⟨0xFFFFFFFB, by decide⟩

theorem witness_MontgomeryProductLaw : ∃ m a b : Limbs 32, 1 ≤ 32 ∧ val m % 2 = 1 ∧ a.length = m.length ∧
    b.length = m.length ∧ val a * val b < val m * 2 ^ (32 * m.length) := ⟨[0xFFFFFFFB], [10], [15], by decide⟩

theorem witness_ContextConstants_MontgomeryRoundTrip : ∃ m a b : Limbs 32, 1 ≤ 32 ∧ val m % 2 = 1 ∧
    a.length = m.length ∧ b.length = m.length ∧ val a < val m ∧ val b < val m :=
  ⟨[0xFFFFFFFB], [0], [0xFFFFFFFA], by decide⟩

theorem witness_ExponentiationLaw : ∃ m base : Limbs 32, 1 ≤ 32 ∧ 1 ≤ 4 ∧ val m % 2 = 1 ∧ 2 < val m ∧ 10 < 2 ^ 32 ∧
    base.length = m.length ∧ val base = 2 * 2 ^ (32 * m.length) % val m := ⟨[0xFFFFFFFB], [10], by decide⟩

/-- The context of `slot23` as limbs. -/
def ctx23 : Ctx 32 := { m := [23], one := [12], rr := [6], n0 := 0x1642C859, a := [12], b := [2], b3 := [6] }

theorem witness_ExponentiationOperationCount : ∃ base : Limbs 32, 1 ≤ 4 ∧ base.length = ctx23.m.length ∧
    ctx23.one.length = ctx23.m.length ∧ 1 ≤ ctx23.m.length := ⟨[10], by decide⟩

theorem witness_FieldAddSubLaw : ∃ x y : Limbs 32, 1 ≤ 32 ∧ x.length = ctx23.m.length ∧ y.length = ctx23.m.length ∧
    val x < val ctx23.m ∧ val y < val ctx23.m := ⟨[0], [22], by decide⟩

theorem witness_PointAdditionLaw :
    let mont := fun v : Nat => limbsOf 32 1 (v * 2 ^ (32 * 1) % 23)
    1 ≤ 32 ∧ val ctx23.m % 2 = 1 ∧ ctx23.n0 = n0inv (ctx23.m.headD 0) ∧ ctx23.m.length = 1 ∧
    ctx23.a = mont 1 ∧ ctx23.b3 = mont (3 * 4) ∧
    (⟨[0], [1], [12]⟩ : Point 32) = ⟨mont 0, mont 2, mont 1⟩ := by decide +kernel

theorem witness_PointAdditionOneSequence : ∃ p q : Point 32,
    (∀ c ∈ [p.x, p.y, p.z, q.x, q.y, q.z, ctx23.a, ctx23.b3], c.length = ctx23.m.length) ∧ 1 ≤ ctx23.m.length :=
  ⟨⟨[0], [1], [12]⟩, ⟨[2], [16], [9]⟩, by decide⟩

theorem witness_AddAndSubResult : Inv bench ∧ (bench.reg 2).valid = true ∧ (bench.reg 3).valid = true ∧
    (bench.reg 2).form = .std ∧ (bench.reg 3).form = .std ∧ (bench.reg 2).len = (bench.reg 3).len :=
  ⟨bench_inv, rfl, rfl, rfl, rfl, rfl⟩

theorem witness_CompareAndZeroResult : Inv bench ∧ (bench.reg 4).valid = true ∧ (bench.reg 5).valid = true ∧
    (bench.reg 4).form = (bench.reg 5).form ∧ (bench.reg 4).ctx = (bench.reg 5).ctx ∧
    (bench.reg 4).len = (bench.reg 5).len := ⟨bench_inv, rfl, rfl, rfl, rfl, rfl⟩

theorem witness_SelectAndSwapResult : Inv bench ∧ condAssigned 14#4 = true ∧ (bench.reg 4).valid = true ∧
    (bench.reg 5).valid = true ∧ ((bench.reg 4).form = .std ∨ (bench.reg 4).form = .mont) ∧
    (bench.reg 4).form = (bench.reg 5).form ∧ (bench.reg 4).ctx = (bench.reg 5).ctx ∧
    (bench.reg 4).len = (bench.reg 5).len := ⟨bench_inv, rfl, rfl, rfl, .inr rfl, rfl, rfl, rfl⟩

theorem witness_ContextLoadResult : Inv bench ∧ (bench.reg 0).valid = true ∧ (bench.reg 0).form = .std ∧
    (bench.reg 0).data.toNat % 2 = 1 ∧ (bench.reg 1).valid = true ∧ (bench.reg 1).form = .std ∧
    (bench.reg 1).data.toNat % 2 = 0 := ⟨bench_inv, by decide +kernel⟩

theorem witness_ToMontgomeryResult : Inv bench ∧ (bench.slot 1).cvalid = true ∧ (bench.reg 3).valid = true ∧
    (bench.reg 3).form = .std ∧ (bench.reg 3).len = (bench.slot 1).clen ∧
    (bench.reg 3).data.toNat < (bench.slot 1).m.toNat ∧
    (bench.reg 0).valid = true ∧ (bench.reg 0).form = .std ∧ (bench.reg 0).len = (bench.slot 1).clen ∧
    (bench.slot 1).m.toNat ≤ (bench.reg 0).data.toNat := ⟨bench_inv, by decide +kernel⟩

theorem witness_MontgomeryProductResult_FromMontgomeryResult : Inv bench ∧ (bench.slot 1).cvalid = true ∧
    (bench.reg 4).valid = true ∧ (bench.reg 4).form = .mont ∧ (bench.reg 4).ctx = 1 ∧
    (bench.reg 5).valid = true ∧ (bench.reg 5).form = .mont ∧ (bench.reg 5).ctx = 1 :=
  ⟨bench_inv, rfl, rfl, rfl, rfl, rfl, rfl, rfl⟩

theorem witness_ExponentiationResult : Inv bench ∧ (bench.slot 2).cvalid = true ∧ (bench.reg 14).valid = true ∧
    (bench.reg 14).form = .mont ∧ (bench.reg 14).ctx = 2 ∧ (bench.reg 15).valid = true ∧ (bench.reg 15).form = .std ∧
    (bench.reg 14).data.toNat = 2 * radix bench.params (bench.slot 2).clen % (bench.slot 2).m.toNat :=
  ⟨bench_inv, by decide +kernel⟩

theorem blind_regs : ∀ i : VIdx, RegOk (blindBench .fail) ((blindBench .fail).reg i) := by decide +kernel

theorem blind_inv (a : RngAnswer) : Inv (blindBench a) :=
  ⟨bench_legal, fun i => blind_regs i, bench_slots, bench_status⟩

theorem witness_BlindedExponentiationResult (a : RngAnswer) : Inv (blindBench a) ∧
    (((blindBench a).slot 2).cvalid = true ∧ ((blindBench a).reg 14).valid = true ∧
      ((blindBench a).reg 14).form = .mont ∧ ((blindBench a).reg 14).ctx = 2) ∧
    (((blindBench a).reg 15).valid = true ∧ ((blindBench a).reg 15).form = .std ∧
      ((blindBench a).reg 13).valid = true ∧ ((blindBench a).reg 13).form = .std) ∧
    (blindBench a).rng.headD (Config.rngAnswer (blindBench a).rngCount) = a ∧
    exampleBytes.length = (blindBench a).params.blindBits / 8 :=
  ⟨blind_inv a, ⟨rfl, rfl, rfl, rfl⟩, ⟨rfl, rfl, rfl, rfl⟩, rfl,
    (by decide : exampleBytes.length = 64 / 8)⟩

theorem witness_CurveLoadResult : Inv bench ∧
    ((bench.slot 1).cvalid = true ∧ (bench.reg 1).valid = true ∧ (bench.reg 2).valid = true ∧
      (bench.reg 12).valid = true ∧ (bench.reg 1).form = .std ∧ (bench.reg 2).form = .std ∧
      (bench.reg 12).form = .std) ∧
    ((bench.reg 1).len = (bench.slot 1).clen ∧ (bench.reg 2).len = (bench.slot 1).clen ∧
      (bench.reg 1).data.toNat < (bench.slot 1).m.toNat ∧ (bench.reg 2).data.toNat < (bench.slot 1).m.toNat) ∧
    ((bench.reg 0).valid = true ∧ (bench.reg 0).form = .std ∧ (bench.reg 0).len = (bench.slot 1).clen ∧
      (bench.slot 1).m.toNat ≤ (bench.reg 0).data.toNat) := ⟨bench_inv, by decide +kernel⟩

theorem witness_PointLoadResult : Inv bench ∧ (13 : VIdx).val ≤ 13 ∧ (bench.slot 1).kvalid = true ∧
    ((bench.slot 1).a.toNat = 1 * radix bench.params 1 % 23 ∧ (bench.slot 1).b.toNat = 4 * radix bench.params 1 % 23) ∧
    (2 ^ 2 % 23 = (0 ^ 3 + 1 * 0 + 4) % 23 ∧ 5 ^ 2 % 23 ≠ (0 ^ 3 + 1 * 0 + 4) % 23) ∧
    ((bench.reg 1).data.toNat = 0 ∧ (bench.reg 2).data.toNat = 2 ∧ (bench.reg 3).data.toNat = 5 ∧
      (bench.slot 1).m.toNat = 23 ∧ (bench.reg 0).data.toNat = 23) := ⟨bench_inv, by decide +kernel⟩

theorem witness_PointAtInfinityResult : Inv bench ∧ (13 : VIdx).val ≤ 13 ∧ (bench.slot 1).cvalid = true ∧
    (bench.slot 1).kvalid = true := ⟨bench_inv, by decide, rfl, rfl⟩

/-- Logical coordinates: (0, 2, 1) in `V6..V8`, (2, 9, 18) in `V9..V11`. -/
theorem witness_PointAdditionResult :
    let mont := fun v : Nat => v * radix bench.params 1 % 23
    Inv bench ∧ (13 : VIdx).val ≤ 13 ∧ (tripleValid bench 6 = true ∧ tripleTagged bench 6 1 = true ∧
      tripleValid bench 9 = true ∧ tripleTagged bench 9 1 = true) ∧
    ((bench.slot 1).a.toNat = mont 1 ∧ (bench.slot 1).b.toNat = mont 4) ∧
    (dat bench 6 = mont 0 ∧ dat bench 7 = mont 2 ∧ dat bench 8 = mont 1) ∧
    (dat bench 9 = mont 4 ∧ dat bench 10 = mont 9 ∧ dat bench 11 = mont 18) := ⟨bench_inv, by decide +kernel⟩

theorem witness_AffineResult :
    let mont := fun v : Nat => v * radix bench.params 1 % 23
    Inv bench ∧ (9 : VIdx).val ≤ 13 ∧ (3 : VIdx) ≠ 4 ∧ (3 : VIdx) = 3 ∧
    (tripleValid bench 9 = true ∧ tripleTagged bench 9 1 = true ∧ 18 < 23) ∧
    (dat bench 9 = mont 4 ∧ dat bench 10 = mont 9 ∧ dat bench 11 = mont 18) := ⟨bench_inv, by decide +kernel⟩

/-- In range, out of range, and the point at infinity (its triple written over `V9..V11`). -/
theorem witness_ScalarMultiplicationResult :
    Inv bench ∧ (tripleValid bench 6 = true ∧ tripleTagged bench 6 1 = true) ∧
    ((bench.reg 3).valid = true ∧ (bench.reg 3).form = .std ∧ (bench.reg 3).len = (bench.slot 1).ordlen ∧
      (bench.reg 3).data.toNat < (bench.slot 1).ord.toNat ∧ (bench.reg 8).data ≠ 0) ∧
    ((bench.reg 12).form = .std ∧ (bench.slot 1).ord.toNat ≤ (bench.reg 12).data.toNat) ∧
    nextHolds (exec (.ptinf 9 1) bench) (fun t => tripleValid t 9 && tripleTagged t 9 1 &&
      (t.reg 11).data == 0 && decide ((t.reg 3).data.toNat < (t.slot 1).ord.toNat)) = true :=
  ⟨bench_inv, by decide +kernel⟩

theorem witness_ErrorChangesNothingElse_CodesOfEachCommand :
    ∃ t, exec (.add 0 1 4) bench = .next t ∧ bench.err = none ∧ t.err = some .eForm ∧ ErrCode.eForm ≠ .eRng := by
  obtain ⟨t, h, h'⟩ := next_of (r := exec (.add 0 1 4) bench) (p := fun t => t.err == some .eForm) (by decide +kernel)
  exact ⟨t, h, rfl, by simpa using h', by decide⟩

theorem witness_TagChecksInOrder :
    (∃ t, exec (.ptadd 14 6 9 0) bench = .next t ∧ firstTagError (.ptadd 14 6 9 0) bench = some .eRegidx) ∧
    (∃ t, exec (.tomont 0 0 1) bench = .next t ∧ firstTagError (.tomont 0 0 1) bench = none ∧ t.err = some .eRange) := by
  obtain ⟨t, h, -⟩ := next_of (r := exec (.ptadd 14 6 9 0) bench) (p := fun _ => true) (by decide +kernel)
  obtain ⟨u, h', h''⟩ := next_of (r := exec (.tomont 0 0 1) bench) (p := fun t => t.err == some .eRange) (by decide +kernel)
  exact ⟨⟨t, h, by decide +kernel⟩, u, h', by decide +kernel, by simpa using h''⟩

theorem witness_ReturnFromError :
    (pending.busy = false ∧ pending.fatal = false ∧ pending.err ≠ none) ∧ (locked.busy = false ∧ locked.fatal = true) := by
  decide

/-- Both ends of each range of the window's map. -/
theorem witness_WindowMap :
    locate 0x20 = some .inten ∧ locate 0x24 = none ∧ locate 0x3C = none ∧ locate 0x40 = some (.vtag 0) ∧
    locate 0x7C = some (.vtag 15) ∧ locate 0x80 = some (.ctxtag 0) ∧ locate 0x8C = some (.ctxtag 3) ∧
    locate 0x90 = none ∧ locate 0x1FFC = none ∧ locate 0x2000 = some (.data 0 0) ∧
    locate 0x3FFC = some (.data 15 127) ∧ locate 0x4000 = none ∧ locate 0x22 = none := by decide

theorem witness_WindowByCondition :
    (accepted 0 []).busy = true ∧ (locked.busy = false ∧ locked.fatal = true) ∧
    (pending.busy = false ∧ pending.fatal = false ∧ locate 0x14 = some .cmd ∧ locate 0x3FFC = some (.data 15 127)) := by
  decide

theorem witness_ReadsAndRefusalsChangeNothing :
    busRead bench 0 4 = some 0x52494E47 ∧ busRead bench 0x24 4 = none ∧ busWrite bench 0 4 0 = none ∧
    (busWrite bench 0x20 4 1).isSome = true := by decide +kernel

/-- `LMAX` is 128 in `bench`: both sides of it, and of bit 9. -/
theorem witness_TagWrite : bench.busy = false ∧ bench.fatal = false ∧ lmax bench.params = 128 ∧
    lmax bench.params < (129 : Word).toNat ∧ (1 ≤ (128 : Word).toNat ∧ (128 : Word).toNat ≤ lmax bench.params) ∧
    512 ≤ (512 : Word).toNat := by decide

theorem witness_DataWrite_DataRead : bench.busy = false ∧ bench.fatal = false ∧
    ((bench.reg 13).valid = true ∧ (bench.reg 13).form = .std ∧ 1 < (bench.reg 13).len * bench.params.w / 32 ∧
      (bench.reg 13).len * bench.params.w / 32 ≤ 2) ∧
    ¬ ((bench.reg 4).valid = true ∧ (bench.reg 4).form = .std) := by decide +kernel

theorem accepted_inv (w : Word) (es : List Event) : Inv (accepted w es) :=
  ⟨bench_legal, fun i => bench_regs i, fun k => bench_slots k, fun _ => ⟨rfl, rfl, rfl⟩,
    (by decide : bench.fatal = true ↔ bench.err.any (fun e => errClass e == .contract) = true)⟩

theorem locked_inv : Inv locked := ⟨bench_legal, fun i => bench_regs i, fun k => bench_slots k, by decide⟩

theorem pending_inv : Inv pending := ⟨bench_legal, fun i => bench_regs i, fun k => bench_slots k, by decide⟩

theorem witness_TagReads : Inv bench ∧ bench.busy = false ∧ bench.fatal = false := ⟨bench_inv, by decide⟩

/-- One state in each condition. -/
theorem witness_ControlRegisterReads :
    (Inv (accepted 0 []) ∧ (accepted 0 []).busy = true) ∧ (Inv locked ∧ locked.busy = false ∧ locked.fatal = true) ∧
    (Inv pending ∧ pending.busy = false ∧ pending.fatal = false ∧ pending.err ≠ none) ∧
    (Inv bench ∧ bench.busy = false ∧ bench.fatal = false ∧ bench.err = none) :=
  ⟨⟨accepted_inv 0 [], rfl⟩, ⟨locked_inv, rfl, rfl⟩, ⟨pending_inv, rfl, rfl, by decide⟩, bench_inv, rfl, rfl, rfl⟩

theorem witness_ControlRegisterWrites :
    bench.busy = false ∧ bench.fatal = false ∧ (2 : Word) ≠ 1 ∧ (3 : Word).toNat < 4 := by decide

theorem witness_ResetClearsEverything :
    ∃ s : State, s.events = .hardReset :: [] ∧ s.busy = true ∧ bench.busy = false :=
  ⟨accepted 0 [.hardReset], rfl, rfl, rfl⟩

theorem witness_StepKeepsInvariant :
    ∃ t, Inv bench ∧ step bench = .next t := ⟨bench, bench_inv, rfl⟩

theorem witness_WhoWritesForms :
    (∃ t, exec (.tomont 3 3 1) bench = .next t ∧ t.reg 3 ≠ bench.reg 3 ∧ (t.reg 3).form = .mont) ∧
    (∃ t, exec (.ptinf 13 1) bench = .next t ∧ t.reg 15 ≠ bench.reg 15 ∧ (t.reg 15).form = .pz) ∧
    (hostAccess bench (.write 0x40 4 1)).reg 0 ≠ bench.reg 0 := by
  obtain ⟨t, h, h'⟩ := next_of (r := exec (.tomont 3 3 1) bench)
    (p := fun t => t.reg 3 != bench.reg 3 && (t.reg 3).form == .mont) (by decide +kernel)
  obtain ⟨u, g, g'⟩ := next_of (r := exec (.ptinf 13 1) bench)
    (p := fun t => t.reg 15 != bench.reg 15 && (t.reg 15).form == .pz) (by decide +kernel)
  exact ⟨⟨t, h, by simpa using h'⟩, ⟨u, g, by simpa using g'⟩, by decide +kernel⟩

theorem witness_OnlyDestinationsChange :
    (∃ t, exec (.ctxload 0 1) bench = .next t ∧ (4 : VIdx) ∉ destRegs (.ctxload 0 1) ∧ t.reg 4 = VReg.cleared) ∧
    (∃ t, exec (.crvload 1 2 3 1) bench = .next t ∧ (6 : VIdx) ∉ destRegs (.crvload 1 2 3 1) ∧ t.reg 6 = VReg.cleared) := by
  obtain ⟨t, h, h'⟩ := next_of (r := exec (.ctxload 0 1) bench) (p := fun t => t.reg 4 == VReg.cleared) (by decide +kernel)
  obtain ⟨u, g, g'⟩ := next_of (r := exec (.crvload 1 2 3 1) bench) (p := fun t => t.reg 6 == VReg.cleared)
    (by decide +kernel)
  exact ⟨⟨t, h, by decide, by simpa using h'⟩, u, g, by decide, by simpa using g'⟩

theorem witness_WhoWritesFlagsAndSlots :
    ∃ t, exec (.cmp 1 2) bench = .next t ∧ Instr.cmp 1 2 ≠ .zeroize ∧ t.flags.lt ≠ bench.flags.lt := by
  obtain ⟨t, h, h'⟩ := next_of (r := exec (.cmp 1 2) bench) (p := fun t => t.flags.lt != bench.flags.lt) (by decide +kernel)
  exact ⟨t, h, by decide, by simpa using h'⟩

/-- Two states with the same tags and different values, on which a command succeeds in both. -/
theorem witness_ConstantTimeTrace :
    ∃ s t s' t' : State, SamePublic (.montmul 3 4 5 1) s t ∧ s.err = none ∧ t.err = none ∧
      exec (.montmul 3 4 5 1) s = .next s' ∧ exec (.montmul 3 4 5 1) t = .next t' ∧ s'.err = t'.err ∧
      s.reg 4 ≠ t.reg 4 := by
  obtain ⟨s', h, h'⟩ := next_of (r := exec (.montmul 3 4 5 1) bench) (p := fun t => t.err == none) (by decide +kernel)
  obtain ⟨t', g, g'⟩ := next_of (r := exec (.montmul 3 4 5 1) (bench.setReg 4 (regOf 1 .mont 1 22)))
    (p := fun t => t.err == none) (by decide +kernel)
  refine ⟨bench, bench.setReg 4 (regOf 1 .mont 1 22), s', t', ⟨rfl, ?_, ?_⟩, rfl, rfl, h, g, ?_, by decide +kernel⟩
  · decide +kernel
  · decide +kernel
  · rw [beq_iff_eq.mp h', beq_iff_eq.mp g']

theorem witness_TracesOfAllCommands :
    (∃ t, Inv bench ∧ bench.err = none ∧ exec (.montsqr 3 4 1) bench = .next t ∧ t.err = none) ∧
    (∃ t, exec (.tomont 0 0 1) bench = .next t ∧ t.err = some .eRange) := by
  obtain ⟨t, h, h'⟩ := next_of (r := exec (.montsqr 3 4 1) bench) (p := fun t => t.err == none) (by decide +kernel)
  obtain ⟨u, g, g'⟩ := next_of (r := exec (.tomont 0 0 1) bench) (p := fun t => t.err == some .eRange) (by decide +kernel)
  exact ⟨⟨t, bench_inv, rfl, h, by simpa using h'⟩, u, g, by simpa using g'⟩

end Sys2Proof.Tests
end

section
/-! SUPPORT. The register window seen from its registers: the offset of each, which accesses of it are taken in which
condition, and the words of a register's data (20_memory.md R61, R62, R65, R68, R69). -/

namespace Sys2Proof.Machine

/-! The map from the registers' side. -/

/-- The byte offset of a register of the window (20_memory.md R61, R62): the inverse of `locate`. -/
def WinReg.offset : WinReg → Nat
  | .id => 0x00
  | .cfg0 => 0x04
  | .cfg1 => 0x08
  | .ctrl => 0x0C
  | .status => 0x10
  | .cmd => 0x14
  | .err => 0x18
  | .flags => 0x1C
  | .inten => 0x20
  | .vtag i => 0x40 + 4 * i.val
  | .ctxtag k => 0x80 + 4 * k.val
  | .data i j => 0x2000 + 0x200 * i.val + 4 * j.val

theorem offset_of_locate {off : Nat} {r : WinReg} (h : locate off = some r) : off = r.offset := by
  unfold locate at h
  split_ifs at h with unaligned hcontrol hvtag hctxtag hdata <;>
    have aligned : off % 4 = 0 := by simpa using unaligned
  · obtain ⟨n, rfl⟩ : ∃ n, off = 4 * n := ⟨off / 4, by omega⟩
    have hn : n < 9 := by omega
    interval_cases n <;> cases h <;> rfl
  · obtain ⟨lo, hi⟩ : 0x40 ≤ off ∧ off < 0x80 := by simpa using hvtag
    cases h
    change off = 0x40 + 4 * ((off - 0x40) / 4 % 16)
    omega
  · obtain ⟨lo, hi⟩ : 0x80 ≤ off ∧ off < 0x90 := by simpa using hctxtag
    cases h
    change off = 0x80 + 4 * ((off - 0x80) / 4 % 4)
    omega
  · obtain ⟨lo, hi⟩ : 0x2000 ≤ off ∧ off < 0x4000 := by simpa using hdata
    cases h
    change off = 0x2000 + 0x200 * ((off - 0x2000) / 0x200 % 16) + 4 * ((off - 0x2000) % 0x200 / 4 % 128)
    omega

theorem locate_data (i : VIdx) (j : Fin 128) : locate (0x2000 + 0x200 * i.val + 4 * j.val) = some (.data i j) := by
  unfold locate
  rw [if_neg (by simp; omega), if_neg (by omega), if_neg (by simp; omega), if_neg (by simp; omega),
    if_pos (by simp; omega)]
  congr 2 <;> apply Fin.ext <;> simp only [Fin.ofNat] <;> omega

@[simp] theorem locate_offset (r : WinReg) : locate r.offset = some r := by
  cases r with
  | vtag i =>
    have h : (0x40 + 4 * i.val) % 4 = 0 ∧ ¬ 0x40 + 4 * i.val < 0x24 ∧ 0x40 + 4 * i.val < 0x80 := by omega
    simp [locate, WinReg.offset, h]
  | ctxtag k =>
    have h : (0x80 + 4 * k.val) % 4 = 0 ∧ ¬ 0x80 + 4 * k.val < 0x24 ∧ ¬ 0x80 + 4 * k.val < 0x80 ∧
        0x80 + 4 * k.val < 0x90 := by omega
    simp [locate, WinReg.offset, h]
  | data i j => exact locate_data i j
  | _ => rfl

/-- Every register stands at its offset and nowhere else. -/
theorem locate_eq_some_iff {off : Nat} {r : WinReg} : locate off = some r ↔ off = r.offset :=
  ⟨offset_of_locate, fun h => h ▸ locate_offset r⟩

/-! Which accesses are taken. -/

theorem busRead_isSome_iff (s : State) (off : Nat) :
    (busRead s off 4).isSome = true ↔
      ∃ r, r.offset = off ∧ readAllowed s.condition r = true ∧ (readReg s r).isSome = true := by
  simp only [eq_comm (b := off), ← locate_eq_some_iff]
  cases h : locate off with
  | none => simp [busRead, h]
  | some r => by_cases allowed : readAllowed s.condition r = true <;> simp [busRead_of_locate s h, allowed]

theorem busWrite_isSome_iff (s : State) (off : Nat) (d : Word) :
    (busWrite s off 4 d).isSome = true ↔
      ∃ r, r.offset = off ∧ writeAllowed s.condition r = true ∧ (writeReg s d r).isSome = true := by
  simp only [eq_comm (b := off), ← locate_eq_some_iff]
  cases h : locate off with
  | none => simp [busWrite, h]
  | some r => by_cases allowed : writeAllowed s.condition r = true <;> simp [busWrite_of_locate s d h, allowed]

/-- Where the condition allows reads of a list of always readable values only, exactly their offsets can be read. -/
theorem busRead_isSome_iff_mem {s : State} (off : Nat) {rs : List WinReg}
    (allowed : ∀ r, readAllowed s.condition r = true ↔ r ∈ rs) (readable : ∀ r ∈ rs, (readReg s r).isSome = true) :
    (busRead s off 4).isSome = true ↔ off ∈ rs.map WinReg.offset := by
  rw [busRead_isSome_iff, List.mem_map]
  constructor
  · rintro ⟨r, hoff, hallowed, -⟩
    exact ⟨r, (allowed r).mp hallowed, hoff⟩
  · rintro ⟨r, hmem, hoff⟩
    exact ⟨r, hoff, (allowed r).mpr hmem, readable r hmem⟩

theorem readAllowed_busy_iff_mem (r : WinReg) :
    readAllowed .busy r = true ↔ r ∈ [WinReg.id, .cfg0, .cfg1, .status] := by
  cases r <;> simp [readAllowed, alwaysReadable]

theorem readAllowed_fatal_iff_mem (r : WinReg) :
    readAllowed .fatal r = true ↔ r ∈ [WinReg.id, .cfg0, .cfg1, .status, .err] := by
  cases r <;> simp [readAllowed, alwaysReadable]

theorem busWrite_of_busy {s : State} (h : s.busy = true) (off : Nat) (d : Word) : busWrite s off 4 d = none := by
  rw [← Option.not_isSome_iff_eq_none, busWrite_isSome_iff, condition_busy h]
  simp [writeAllowed]

theorem writeCtrl_isSome_iff (s : State) (d : Word) : (writeCtrl s d).isSome = true ↔ d = 1 := by
  by_cases h : d = 1 <;> simp [writeCtrl, h]

/-- In FATAL the only write taken is the soft reset. -/
theorem busWrite_isSome_of_fatal {s : State} (hb : s.busy = false) (hf : s.fatal = true) (off : Nat) (d : Word) :
    (busWrite s off 4 d).isSome = true ↔ off = 0x0C ∧ d = 1 := by
  rw [busWrite_isSome_iff, condition_fatal hb hf, ← writeCtrl_isSome_iff s d]
  constructor
  · rintro ⟨r, rfl, hallowed, htaken⟩
    obtain rfl : r = .ctrl := beq_iff_eq.mp hallowed
    exact ⟨rfl, htaken⟩
  · rintro ⟨rfl, htaken⟩
    exact ⟨.ctrl, rfl, rfl, htaken⟩

theorem readAllowed_of_unlocked {s : State} (hb : s.busy = false) (hf : s.fatal = false) (r : WinReg) :
    readAllowed s.condition r = true := by
  by_cases he : s.err = none
  · rw [condition_idle hb hf he]; rfl
  · rw [condition_errpend hb hf he]; rfl

theorem writeAllowed_of_unlocked {s : State} (hb : s.busy = false) (hf : s.fatal = false) (r : WinReg) :
    writeAllowed s.condition r = true ↔ r = .cmd → s.err = none := by
  by_cases he : s.err = none
  · simp [condition_idle hb hf he, writeAllowed, he]
  · simp [condition_errpend hb hf he, writeAllowed, he]

/-- Outside BUSY and FATAL a read of a register answers what the register's own rule says. -/
theorem busRead_of_unlocked {s : State} (hb : s.busy = false) (hf : s.fatal = false) {off : Nat} {r : WinReg}
    (h : locate off = some r) : busRead s off 4 = readReg s r := by
  rw [busRead_of_locate s h, if_pos (readAllowed_of_unlocked hb hf r)]

/-- Outside BUSY and FATAL a write of a register but `CMD` does what the register's own rule says. -/
theorem busWrite_of_unlocked {s : State} (hb : s.busy = false) (hf : s.fatal = false) {off : Nat} (d : Word) {r : WinReg}
    (h : locate off = some r) (hr : r ≠ .cmd) : busWrite s off 4 d = writeReg s d r := by
  rw [busWrite_of_locate s d h, if_pos ((writeAllowed_of_unlocked hb hf r).mpr (absurd · hr))]

/-! The words of a register's data. -/

theorem dataWord_eq_ofNat (x : VData) (j : Nat) : dataWord x j = BitVec.ofNat 32 (x.toNat / 2 ^ (32 * j)) := by
  rw [dataWord, BitVec.extractLsb', Nat.shiftRight_eq_div_pow]

theorem getLsbD_dataWord (x : VData) (j t : Nat) :
    (dataWord x j).getLsbD t = (decide (t < 32) && x.getLsbD (32 * j + t)) := by
  simp [dataWord]

/-- The mask of one word, bit by bit. -/
theorem getLsbD_wordMask (t : Nat) : (0xFFFFFFFF : VData).getLsbD t = decide (t < 32) := by
  have h : (0xFFFFFFFF : VData) = BitVec.ofNat 4096 (2 ^ 32 - 1) := rfl
  rw [h, BitVec.getLsbD_ofNat, Nat.testBit_two_pow_sub_one]
  by_cases ht : t < 32
  · have ht' : t < 4096 := by omega
    simp [ht, ht']
  · simp [ht]

/-- `setDataWord` changes the 32 bits of its word and nothing else. -/
theorem getLsbD_setDataWord (x : VData) (j : Nat) (d : Word) {t : Nat} (ht : t < 4096) :
    (setDataWord x j d).getLsbD t =
      if 32 * j ≤ t ∧ t < 32 * j + 32 then d.getLsbD (t - 32 * j) else x.getLsbD t := by
  simp only [setDataWord, BitVec.getLsbD_or, BitVec.getLsbD_and, BitVec.getLsbD_not, BitVec.getLsbD_shiftLeft,
    BitVec.getLsbD_setWidth, getLsbD_wordMask]
  by_cases below : t < 32 * j
  · have h : ¬ 32 * j ≤ t := by omega
    simp [below, ht, h]
  · by_cases inside : t < 32 * j + 32
    · have h : t - 32 * j < 32 ∧ t - 32 * j < 4096 ∧ 32 * j ≤ t := by omega
      simp [below, inside, ht, h]
    · have h : ¬ t - 32 * j < 32 := by omega
      have hd : d.getLsbD (t - 32 * j) = false := BitVec.getLsbD_of_ge d _ (by omega)
      simp [below, inside, ht, h, hd]

/-- The word written reads back. -/
theorem dataWord_setDataWord (x : VData) (j : Fin 128) (d : Word) : dataWord (setDataWord x j d) j = d := by
  apply BitVec.eq_of_getLsbD_eq
  intro t ht
  have hbit : 32 * j.val + t < 4096 := by omega
  rw [getLsbD_dataWord, getLsbD_setDataWord _ _ _ hbit]
  simp [ht]

/-- What a data window reads: a valid word of a register, whatever its form. -/
theorem readReg_data (s : State) (i : VIdx) (j : Fin 128) :
    readReg s (.data i j) = if (s.reg i).valid = true ∧ j.val < (s.reg i).len * s.params.w / 32 then
      some (dataWord (s.reg i).data j) else none := by
  simp [readReg, wordValid]

/-- What a write to a data window does: it replaces a valid word of a STD register. -/
theorem writeReg_data (s : State) (d : Word) (i : VIdx) (j : Fin 128) :
    writeReg s d (.data i j) =
      if (s.reg i).valid = true ∧ (s.reg i).form = .std ∧ j.val < (s.reg i).len * s.params.w / 32 then
        some (s.setReg i { s.reg i with data := setDataWord (s.reg i).data j d }) else none := by
  simp [writeReg, writeData, wordValid, and_left_comm, and_comm]

end Sys2Proof.Machine
end

section
/-! The statements about the register window: which condition takes which access, and the data windows (20_memory.md R65,
R68, R69). -/

namespace Sys2Proof.Machine

/-- Settles O45: in BUSY and FATAL by the list of the registers the condition lets be read, otherwise by the register's
own rule. -/
theorem windowByCondition : Obligations.WindowByCondition := by
  intro s off d
  refine ⟨fun hb => ⟨?_, busWrite_of_busy hb off d⟩, fun hb hf => ⟨?_, ?_⟩,
    fun hb hf => ⟨fun r hr => busRead_of_unlocked hb hf hr, fun hoff r hr => ?_, ?_⟩⟩
  · exact busRead_isSome_iff_mem off (fun r => condition_busy hb ▸ readAllowed_busy_iff_mem r) (by simp [readReg])
  · exact busRead_isSome_iff_mem off (fun r => condition_fatal hb hf ▸ readAllowed_fatal_iff_mem r) (by simp [readReg])
  · exact busWrite_isSome_of_fatal hb hf off d
  · refine busWrite_of_unlocked hb hf d hr ?_
    rintro rfl
    exact hoff (offset_of_locate hr)
  · have hcmd : locate 0x14 = some .cmd := locate_offset .cmd
    rw [busWrite_of_locate s d hcmd]
    simp [writeAllowed_of_unlocked hb hf, writeReg]

/-- Settles O48: the word written is `setDataWord`'s, whose bits `getLsbD_setDataWord` gives. -/
theorem dataWrite : Obligations.DataWrite := by
  intro s i j d hb hf off r
  have hloc : locate off = some (.data i j) := locate_data i j
  have hwrite := busWrite_of_unlocked hb hf d hloc (by simp)
  rw [writeReg_data] at hwrite
  constructor
  · intro h
    rw [hwrite, if_neg h]
  · intro hvalid hstd hj
    refine ⟨setDataWord r.data j d, ?_, fun t ht => getLsbD_setDataWord r.data j d ht, ?_⟩
    · rw [hwrite, if_pos ⟨hvalid, hstd, hj⟩]
      rfl
    · change busRead (s.setReg i { r with data := setDataWord r.data j d }) off 4 = some d
      rw [busRead_of_unlocked (s := s.setReg i _) hb hf hloc, readReg_data, reg_setReg_self,
        if_pos ⟨hvalid, hj⟩, dataWord_setDataWord]

/-- Settles O49: a data word is read by VALID and LEN alone, and its bits are those of the quotient. -/
theorem dataRead : Obligations.DataRead := by
  intro s i j hb hf off
  have hread : busRead s off 4 = readReg s (.data i j) := busRead_of_unlocked hb hf (locate_data i j)
  rw [hread, readReg_data]
  constructor
  · intro h
    rw [if_pos h, dataWord_eq_ofNat]
  · rintro (hinvalid | hlong)
    · simp [hinvalid]
    · simp [Nat.not_lt.mpr hlong]

end Sys2Proof.Machine
end

section
/-! SUPPORT. The adder (40_limb_adder_subtractor.md): what a carry and a borrow bit say of one limb, the values of the
loops of ADD_n and SUB_n for any incoming bit, and when the or of all limbs is zero. -/

namespace Sys2Proof.Machine

/-! One limb. -/

/-- The wrap test `s < a` of R122 is the carry of one limb sum. -/
theorem toNat_add_carry {w : Nat} (a b : BitVec w) :
    (a + b).toNat + 2 ^ w * ((a + b).ult a).toNat = a.toNat + b.toNat := by
  have ha := a.isLt
  have hb := b.isLt
  rw [BitVec.ult, BitVec.toNat_add]
  by_cases hsum : a.toNat + b.toNat < 2 ^ w
  · simp [Nat.mod_eq_of_lt hsum]
  · have hmod : (a.toNat + b.toNat) % 2 ^ w = a.toNat + b.toNat - 2 ^ w := by
      rw [Nat.mod_eq_sub_mod (by omega), Nat.mod_eq_of_lt (by omega)]
    have hwrap : a.toNat + b.toNat - 2 ^ w < a.toNat := by omega
    simp only [hmod, hwrap, decide_true, Bool.toNat_true]
    omega

/-- The test `a < b` of R123 is the borrow of one limb difference. -/
theorem toNat_sub_borrow {w : Nat} (a b : BitVec w) :
    (a - b).toNat + b.toNat = a.toNat + 2 ^ w * (a.ult b).toNat := by
  have ha := a.isLt
  have hb := b.isLt
  by_cases hlt : a.toNat < b.toNat
  · have hwrap : (a - b).toNat = 2 ^ w - (b.toNat - a.toNat) := BitVec.toNat_sub_of_lt hlt
    simp only [BitVec.ult, hwrap, hlt, decide_true, Bool.toNat_true]
    omega
  · have hdiff : (a - b).toNat = a.toNat - b.toNat := BitVec.toNat_sub_of_le (Nat.not_lt.mp hlt)
    simp only [BitVec.ult, hdiff, hlt, decide_false, Bool.toNat_false]
    omega

theorem toNat_setWidth_ofBool {w : Nat} (hw : 1 ≤ w) (c : Bool) :
    ((BitVec.ofBool c).setWidth w).toNat = c.toNat := by
  have hone : 1 < 2 ^ w := Nat.one_lt_two_pow (by omega)
  cases c <;> simp [Nat.mod_eq_of_lt hone]

theorem toNat_or_of_not_both {p q : Bool} (h : ¬ (p = true ∧ q = true)) : (p || q).toNat = p.toNat + q.toNat := by
  revert p q
  decide

/-! The loops. -/

/-- One limb of ADD_n: its two wrap tests never hold together, so their or is the carry of `a + b + c` (R122). -/
theorem addLoop_limb {w : Nat} (hw : 1 ≤ w) (a b : BitVec w) (c : Bool) :
    let s := a + b
    let s2 := s + (BitVec.ofBool c).setWidth w
    s2.toNat + 2 ^ w * (s.ult a || s2.ult s).toNat = a.toNat + b.toNat + c.toNat := by
  intro s s2
  have first : s.toNat + 2 ^ w * (s.ult a).toNat = a.toNat + b.toNat := toNat_add_carry a b
  have second : s2.toNat + 2 ^ w * (s2.ult s).toNat = s.toNat + c.toNat := by
    rw [toNat_add_carry, toNat_setWidth_ofBool hw]
  have ha := a.isLt
  have hb := b.isLt
  have hc := c.toNat_le
  have exclusive : ¬ (s.ult a = true ∧ s2.ult s = true) := by
    rintro ⟨h1, h2⟩
    rw [h1, Bool.toNat_true] at first
    rw [h2, Bool.toNat_true] at second
    omega
  rw [toNat_or_of_not_both exclusive]
  linarith

/-- One limb of SUB_n: its two borrows never hold together, so their or is the borrow of `a - b - k` (R123). -/
theorem subLoop_limb {w : Nat} (hw : 1 ≤ w) (a b : BitVec w) (k : Bool) :
    let d := a - b
    let k' := (BitVec.ofBool k).setWidth w
    (d - k').toNat + b.toNat + k.toNat = a.toNat + 2 ^ w * (a.ult b || d.ult k').toNat := by
  intro d k'
  have first : d.toNat + b.toNat = a.toNat + 2 ^ w * (a.ult b).toNat := toNat_sub_borrow a b
  have second : (d - k').toNat + k.toNat = d.toNat + 2 ^ w * (d.ult k').toNat := by
    rw [← toNat_sub_borrow, toNat_setWidth_ofBool hw]
  have hb := b.isLt
  have hd := (d - k').isLt
  have hk := k.toNat_le
  have exclusive : ¬ (a.ult b = true ∧ d.ult k' = true) := by
    rintro ⟨h1, h2⟩
    rw [h1, Bool.toNat_true] at first
    rw [h2, Bool.toNat_true] at second
    omega
  rw [toNat_or_of_not_both exclusive]
  linarith

/-- The loop of ADD_n adds its incoming carry too. -/
theorem val_addLoop {w : Nat} (hw : 1 ≤ w) {a b : Limbs w} (hl : a.length = b.length) (c : Bool) :
    val (addLoop a b c).1 + (addLoop a b c).2.toNat * 2 ^ (w * a.length) = val a + val b + c.toNat := by
  induction a generalizing b c with
  | nil =>
    obtain rfl := List.length_eq_zero_iff.mp hl.symm
    simp [addLoop]
  | cons x xs ih =>
    obtain ⟨y, ys, rfl⟩ := List.exists_cons_of_length_eq_add_one hl.symm
    have limb := addLoop_limb hw x y c
    have rest := ih (Nat.succ.inj hl) (((x + y).ult x) || (x + y + (BitVec.ofBool c).setWidth w).ult (x + y))
    simp only [addLoop, val_cons, List.length_cons, Nat.mul_succ, Nat.pow_add]
    linear_combination 2 ^ w * rest + limb

/-- The loop of SUB_n subtracts its incoming borrow too. -/
theorem val_subLoop {w : Nat} (hw : 1 ≤ w) {a b : Limbs w} (hl : a.length = b.length) (k : Bool) :
    val (subLoop a b k).1 + val b + k.toNat = val a + (subLoop a b k).2.toNat * 2 ^ (w * a.length) := by
  induction a generalizing b k with
  | nil =>
    obtain rfl := List.length_eq_zero_iff.mp hl.symm
    simp [subLoop]
  | cons x xs ih =>
    obtain ⟨y, ys, rfl⟩ := List.exists_cons_of_length_eq_add_one hl.symm
    have limb := subLoop_limb hw x y k
    have rest := ih (Nat.succ.inj hl) (x.ult y || (x - y).ult ((BitVec.ofBool k).setWidth w))
    simp only [subLoop, val_cons, List.length_cons, Nat.mul_succ, Nat.pow_add]
    linear_combination 2 ^ w * rest + limb

/-- The law of R122. -/
theorem val_addN {w : Nat} (hw : 1 ≤ w) {a b : Limbs w} (hl : a.length = b.length) :
    val (addN a b).1 + (addN a b).2.toNat * 2 ^ (w * a.length) = val a + val b :=
  val_addLoop hw hl false

/-- The law of R123, over the natural numbers. -/
theorem val_subN {w : Nat} (hw : 1 ≤ w) {a b : Limbs w} (hl : a.length = b.length) :
    val (subN a b).1 + val b = val a + (subN a b).2.toNat * 2 ^ (w * a.length) :=
  val_subLoop hw hl false

theorem val_subN_lt {w : Nat} {a b : Limbs w} (hl : a.length = b.length) :
    val (subN a b).1 < 2 ^ (w * a.length) := by
  simpa [hl] using val_lt (subN a b).1

/-- The borrow of SUB_n decides the order of the values (R123). -/
theorem subN_borrow_iff {w : Nat} (hw : 1 ≤ w) {a b : Limbs w} (hl : a.length = b.length) :
    (subN a b).2 = true ↔ val a < val b := by
  have law := val_subN hw hl
  have hd := val_subN_lt hl
  cases hk : (subN a b).2 <;> simp only [hk, Bool.toNat_true, Bool.toNat_false] at law
  · have hle : ¬ val a < val b := by omega
    simp [hle]
  · have hlt : val a < val b := by omega
    simp [hlt]

/-- SUB_n gives 0 for equal values only: a borrow leaves a difference above 0. -/
theorem val_subN_eq_zero_iff {w : Nat} (hw : 1 ≤ w) {a b : Limbs w} (hl : a.length = b.length) :
    val (subN a b).1 = 0 ↔ val a = val b := by
  have law := val_subN hw hl
  have hd := val_subN_lt hl
  have hb : val b < 2 ^ (w * a.length) := hl ▸ val_lt b
  cases hk : (subN a b).2 <;> simp only [hk, Bool.toNat_true, Bool.toNat_false] at law
  · omega
  · have hlt : val a < val b := (subN_borrow_iff hw hl).mp hk
    omega

/-! The zero test. -/

theorem orLimbs_eq_zero_iff {w : Nat} (a : Limbs w) (acc : BitVec w) :
    orLimbs a acc = 0 ↔ acc = 0 ∧ val a = 0 := by
  induction a generalizing acc with
  | nil => simp [orLimbs]
  | cons x xs ih =>
    have hor : acc ||| x = 0 ↔ acc = 0 ∧ x = 0 := BitVec.or_eq_zero_iff
    have hx : x = 0 ↔ x.toNat = 0 := by simp [← BitVec.toNat_inj]
    rw [orLimbs, ih, hor, hx, val_cons]
    simp [and_assoc]

/-- The top bit of `x | -x` tells whether `x` is 0 (R124). -/
theorem topBit_or_neg_eq_false_iff {w : Nat} (hw : 1 ≤ w) (x : BitVec w) :
    (x ||| (0 - x)).getLsbD (w - 1) = false ↔ x = 0 := by
  have hneg : (0 - x).msb = ((x != 0#w && x != BitVec.intMin w) ^^ x.msb) := by
    rw [← BitVec.msb_neg]
    exact congrArg BitVec.msb (BitVec.zero_sub x)
  rw [← BitVec.msb_eq_getLsbD_last, BitVec.msb_or, hneg]
  cases hmsb : x.msb with
  | true =>
    have hne : x ≠ 0 := by
      rintro rfl
      simp at hmsb
    exact iff_of_false (by simp) hne
  | false =>
    have hmin : x ≠ BitVec.intMin w := by
      rintro rfl
      rw [BitVec.msb_intMin, decide_eq_false_iff_not] at hmsb
      omega
    simp [hmin]

/-- The law of R124. -/
theorem isZeroN_iff {w : Nat} (hw : 1 ≤ w) (a : Limbs w) : isZeroN a = true ↔ val a = 0 := by
  rw [isZeroN, Bool.not_eq_true', topBit_or_neg_eq_false_iff hw, orLimbs_eq_zero_iff, and_iff_right rfl]

end Sys2Proof.Machine
end

section
/-! The statements about the adder: addition, subtraction, the zero test and the comparison
(40_limb_adder_subtractor.md R122 to R125). -/

namespace Sys2Proof.Machine

/-- Settles O9: the law is `val_addN`, by induction on the limbs for any incoming carry. -/
theorem additionLaw : Obligations.AdditionLaw := by
  intro w a b hw hl
  have hlen : (addN a b).1.length = a.length := by simp [hl]
  exact ⟨val_addN hw hl, hlen ▸ val_lt (addN a b).1, hlen⟩

/-- Settles O10: every part follows from the law over the natural numbers, `val_subN`. -/
theorem subtractionLaw : Obligations.SubtractionLaw := by
  intro w a b hw hl
  have law := val_subN hw hl
  refine ⟨?_, subN_borrow_iff hw hl, by simp [hl], fun hborrow => ?_⟩
  · zify at law
    linear_combination law
  · simpa [hborrow] using law

/-- Settles O11: `lt` is the borrow of SUB_n, `eq` the zero test of its difference, `gt` what is left. -/
theorem zeroTestAndComparisonLaw : Obligations.ZeroTestAndComparisonLaw := by
  intro w a b hw hl
  have lt_iff : (cmpN a b).lt = true ↔ val a < val b := subN_borrow_iff hw hl
  have eq_iff : (cmpN a b).eq = true ↔ val a = val b :=
    (isZeroN_iff hw _).trans (val_subN_eq_zero_iff hw hl)
  have gt_eq : (cmpN a b).gt = (!(cmpN a b).lt && !(cmpN a b).eq) := rfl
  refine ⟨isZeroN_iff hw a, lt_iff, eq_iff, ?_⟩
  rw [gt_eq, Bool.and_eq_true, Bool.not_eq_true', Bool.not_eq_true', ← Bool.not_eq_true, ← Bool.not_eq_true, lt_iff,
    eq_iff]
  omega

end Sys2Proof.Machine
end

section
/-! SUPPORT. SELECT_n and CSWAP_n without their masks: on vectors of one length each choice is of whole vectors
(41_conditional_select.md R141, R145). -/

namespace Sys2Proof.Machine

/-! Limb-wise choices. -/

theorem zipWith_eq_left {w : Nat} {f : BitVec w → BitVec w → BitVec w} (hf : ∀ x y, f x y = x) {a b : Limbs w}
    (hl : a.length = b.length) : List.zipWith f a b = a := by
  obtain rfl : f = fun x _ => x := funext₂ hf
  rw [← List.map_uncurry_zip_eq_zipWith]
  exact List.map_fst_zip hl.le

theorem zipWith_eq_right {w : Nat} {f : BitVec w → BitVec w → BitVec w} (hf : ∀ x y, f x y = y) {a b : Limbs w}
    (hl : a.length = b.length) : List.zipWith f a b = b := by
  rw [List.zipWith_comm]
  exact zipWith_eq_left (fun y x => hf x y) hl.symm

/-! The functions, for each flag. -/

theorem selectN_true {w : Nat} {a b : Limbs w} (hl : a.length = b.length) : selectN true a b = a :=
  zipWith_eq_left (fun x y => by simp) hl

theorem selectN_false {w : Nat} {a b : Limbs w} (hl : a.length = b.length) : selectN false a b = b :=
  zipWith_eq_right (fun x y => by simp) hl

/-- Under the mask of all ones the second exclusive or cancels the limb's own value and leaves the other's. -/
theorem cswapN_true {w : Nat} {a b : Limbs w} (hl : a.length = b.length) : cswapN true a b = (b, a) := by
  have left_limb (x y : BitVec w) : x ^^^ ((x ^^^ y) &&& maskOf w true) = y := by
    rw [maskOf_true, BitVec.and_allOnes, ← BitVec.xor_assoc, BitVec.xor_self, BitVec.zero_xor]
  have right_limb (x y : BitVec w) : y ^^^ ((x ^^^ y) &&& maskOf w true) = x := by
    rw [BitVec.xor_comm x y, left_limb]
  exact Prod.ext (zipWith_eq_right left_limb hl) (zipWith_eq_left right_limb hl)

theorem cswapN_false {w : Nat} {a b : Limbs w} (hl : a.length = b.length) : cswapN false a b = (a, b) :=
  Prod.ext (zipWith_eq_left (fun x y => by simp) hl) (zipWith_eq_right (fun x y => by simp) hl)

end Sys2Proof.Machine
end

section
/-! The statement about the conditional select's functions (41_conditional_select.md R141, R145). -/

namespace Sys2Proof.Machine

/-- Settles O12: the masks of all ones and all zeros make each limb-wise choice one of whole vectors. -/
theorem selectAndSwapLaw : Obligations.SelectAndSwapLaw := fun _ _ _ hl =>
  ⟨selectN_true hl, selectN_false hl, cswapN_true hl, cswapN_false hl⟩

end Sys2Proof.Machine
end

section
/-! SUPPORT. Every command as data: the checks on the word and the tags, the checks on values, the effect and its unit
operations (60_exceptions.md R246). `exec_eq_runChecks` ties it to the model; the statements about all commands are then
statements about four tables. -/

namespace Sys2Proof.Machine

/-- One check of a command: whether it holds, the code where it fails, the unit operations performed before. -/
structure Check where
  ok : Bool
  code : ErrCode
  work : List TraceEvent := []

/-- The checks in order, then the rest. -/
def runChecks (s : State) : List Check → StepResult → StepResult
  | [], rest => rest
  | c :: cs, rest => require c.ok c.code c.work s (runChecks s cs rest)

/-- The first check that fails. -/
def firstFailing (cs : List Check) : Option Check := cs.find? fun c => !c.ok

/-- Steps 1 to 6 of R246, in each command's order. -/
def tagChecks (s : State) : Instr → List Check
  | .nop => []
  | .zeroize => []
  | .add _ ra rb => [⟨isValid s ra && isValid s rb, .eInvalidReg, []⟩, ⟨isStd s ra && isStd s rb, .eForm, []⟩,
      ⟨sameLen s ra rb, .eLen, []⟩]
  | .sub _ ra rb => [⟨isValid s ra && isValid s rb, .eInvalidReg, []⟩, ⟨isStd s ra && isStd s rb, .eForm, []⟩,
      ⟨sameLen s ra rb, .eLen, []⟩]
  | .cmp ra rb => [⟨isValid s ra && isValid s rb, .eInvalidReg, []⟩, ⟨sameForm s ra rb, .eForm, []⟩,
      ⟨sameLen s ra rb, .eLen, []⟩]
  | .iszero ra => [⟨isValid s ra, .eInvalidReg, []⟩]
  | .sel _ ra rb cond => [⟨condAssigned cond, .eIllegal, []⟩, ⟨isValid s ra && isValid s rb, .eInvalidReg, []⟩,
      ⟨isSelectable s ra && isSelectable s rb && sameForm s ra rb, .eForm, []⟩, ⟨sameLen s ra rb, .eLen, []⟩]
  | .cswap ra rb cond => [⟨condAssigned cond, .eIllegal, []⟩, ⟨isValid s ra && isValid s rb, .eInvalidReg, []⟩,
      ⟨isSelectable s ra && isSelectable s rb && sameForm s ra rb, .eForm, []⟩, ⟨sameLen s ra rb, .eLen, []⟩]
  | .ctxload ra _ => [⟨isValid s ra, .eInvalidReg, []⟩, ⟨isStd s ra, .eForm, []⟩]
  | .tomont _ ra k => [⟨slotLoaded s k, .eCtx, []⟩, ⟨isValid s ra, .eInvalidReg, []⟩, ⟨isStd s ra, .eForm, []⟩,
      ⟨hasLen s ra (s.slot k).clen, .eLen, []⟩]
  | .montmul _ ra rb k => [⟨slotLoaded s k, .eCtx, []⟩, ⟨isValid s ra && isValid s rb, .eInvalidReg, []⟩,
      ⟨isMont s ra k && isMont s rb k, .eForm, []⟩]
  | .montsqr _ ra k => [⟨slotLoaded s k, .eCtx, []⟩, ⟨isValid s ra, .eInvalidReg, []⟩, ⟨isMont s ra k, .eForm, []⟩]
  | .frommont _ ra k => [⟨slotLoaded s k, .eCtx, []⟩, ⟨isValid s ra, .eInvalidReg, []⟩, ⟨isMont s ra k, .eForm, []⟩]
  | .modexp _ ra rb k => [⟨slotLoaded s k, .eCtx, []⟩, ⟨isValid s ra && isValid s rb, .eInvalidReg, []⟩,
      ⟨isMont s ra k && isStd s rb, .eForm, []⟩]
  | .modexpb _ ra rb rc k => [⟨slotLoaded s k, .eCtx, []⟩,
      ⟨isValid s ra && isValid s rb && isValid s rc, .eInvalidReg, []⟩,
      ⟨isMont s ra k && isStd s rb && isStd s rc, .eForm, []⟩]
  | .crvload ra rb rc k => [⟨slotLoaded s k, .eCtx, []⟩,
      ⟨isValid s ra && isValid s rb && isValid s rc, .eInvalidReg, []⟩,
      ⟨isStd s ra && isStd s rb && isStd s rc, .eForm, []⟩,
      ⟨hasLen s ra (s.slot k).clen && hasLen s rb (s.slot k).clen, .eLen, []⟩]
  | .ptload rd ra rb k => [⟨isBase rd, .eRegidx, []⟩, ⟨curveLoaded s k, .eCtx, []⟩,
      ⟨isValid s ra && isValid s rb, .eInvalidReg, []⟩, ⟨isStd s ra && isStd s rb, .eForm, []⟩,
      ⟨hasLen s ra (s.slot k).clen && hasLen s rb (s.slot k).clen, .eLen, []⟩]
  | .ptinf rd k => [⟨isBase rd, .eRegidx, []⟩, ⟨curveLoaded s k, .eCtx, []⟩]
  | .ptadd rd ra rb k => [⟨isBase rd && isBase ra && isBase rb, .eRegidx, []⟩, ⟨curveLoaded s k, .eCtx, []⟩,
      ⟨tripleValid s ra && tripleValid s rb, .eInvalidReg, []⟩,
      ⟨tripleTagged s ra k && tripleTagged s rb k, .eForm, []⟩]
  | .ptdbl rd ra k => [⟨isBase rd && isBase ra, .eRegidx, []⟩, ⟨curveLoaded s k, .eCtx, []⟩,
      ⟨tripleValid s ra, .eInvalidReg, []⟩, ⟨tripleTagged s ra k, .eForm, []⟩]
  | .ptaff rd ra rb k => [⟨isBase ra, .eRegidx, []⟩, ⟨rd != rb, .eAlias, []⟩, ⟨curveLoaded s k, .eCtx, []⟩,
      ⟨tripleValid s ra, .eInvalidReg, []⟩, ⟨tripleTagged s ra k, .eForm, []⟩]
  | .scmul rd ra rb k _ => [⟨isBase rd && isBase ra, .eRegidx, []⟩, ⟨curveLoaded s k, .eCtx, []⟩,
      ⟨tripleValid s ra && isValid s rb, .eInvalidReg, []⟩, ⟨tripleTagged s ra k && isStd s rb, .eForm, []⟩,
      ⟨hasLen s rb (s.slot k).ordlen, .eLen, []⟩]

/-- The range test of CRVLOAD and PTLOAD. -/
def rangeOf (s : State) (ra rb : VIdx) (k : CIdx) : Traced Bool := rangeT (s.ctx k).m (s.limbs ra) (s.limbs rb)

/-- The curve test of PTLOAD. -/
def curveOf (s : State) (ra rb : VIdx) (k : CIdx) : Traced (CurveCheck s.params.w) :=
  oncurveT (s.ctx k) (s.limbs ra) (s.limbs rb)

/-- The checks of R246 that look at values, in each command's order. -/
def valueChecks (s : State) : Instr → List Check
  | .ctxload ra _ => [⟨((s.limbs ra).headD 0).getLsbD 0, .eModEven, []⟩]
  | .tomont _ ra k =>
    let r := cmpT (s.limbs ra) (s.ctx k).m
    [⟨r.val.lt, .eRange, r.trace⟩]
  | .modexpb _ _ _ _ _ => [⟨(deliveredBytes s.drawRng.1).isSome, .eRng, [.rng (blindBytes s.params)]⟩]
  | .crvload ra rb _ k => [⟨(rangeOf s ra rb k).val, .eRange, (rangeOf s ra rb k).trace⟩]
  | .ptload _ ra rb k => [⟨(rangeOf s ra rb k).val, .eRange, (rangeOf s ra rb k).trace⟩,
      ⟨(curveOf s ra rb k).val.ok, .eNotOnCurve, (rangeOf s ra rb k).trace ++ (curveOf s ra rb k).trace⟩]
  | .scmul _ ra rb k noinf =>
    let r := cmpT (s.limbs rb) (s.order k)
    let z := isZeroT (s.limbs (ra + 2))
    [⟨r.val.lt, .eRange, r.trace⟩, ⟨!(noinf && z.val), .ePointInf, r.trace ++ z.trace⟩]
  | _ => []

/-- The state once the tags are checked: MODEXPB has asked the randomness port. -/
def entered (s : State) : Instr → State
  | .modexpb _ _ _ _ _ => s.drawRng.2
  | _ => s

/-- The exponentiation of MODEXP. -/
def powOf (s : State) (ra rb : VIdx) (k : CIdx) : Traced (Limbs s.params.w) :=
  modexpT (s.ctx k) s.params.win (s.limbs ra) (val (s.limbs rb)) (s.params.w * (s.reg rb).len)

/-- The exponentiation of MODEXPB, with the bytes that were delivered. -/
def blindPowOf (s : State) (ra rb rc : VIdx) (k : CIdx) : Traced (Limbs s.params.w) :=
  let bytes := (deliveredBytes s.drawRng.1).getD []
  modexpT (s.ctx k) s.params.win (s.limbs ra)
    (val (s.limbs rb) + blindFactor (blindBytes s.params) bytes * val (s.limbs rc))
    (s.params.w * blindLimbs (s.reg rb).len (s.reg rc).len (klimbs s.params))

/-- The constants of CRVLOAD. -/
def constOf (s : State) (ra rb : VIdx) (k : CIdx) :
    Traced (Limbs s.params.w × Limbs s.params.w × Limbs s.params.w) :=
  curveConstT (s.ctx k) (s.limbs ra) (s.limbs rb)

/-- The sum of two points. -/
def sumOf (s : State) (ra rb : VIdx) (k : CIdx) : Traced (Point s.params.w) :=
  paddE (s.ctx k) (s.point ra) (s.point rb)

/-- What PTAFF computes. -/
def affineOf (s : State) (ra : VIdx) (k : CIdx) : Traced (Bool × Limbs s.params.w × Limbs s.params.w) :=
  affineT (s.ctx k) s.params.win (s.point ra)

/-- The ladder of SCMUL. -/
def multipleOf (s : State) (ra rb : VIdx) (k : CIdx) : Traced (Point s.params.w) :=
  scalarMultT (s.ctx k) (s.point ra) (val (s.limbs rb)) (s.params.w * (s.slot k).ordlen)

/-- What a command writes where every check holds, its completion left out. -/
def effect (s : State) : Instr → State
  | .nop => s
  | .zeroize => s.zeroizeAll
  | .add rd ra rb =>
    let r := addN (s.limbs ra) (s.limbs rb)
    setC (s.write rd .std 0 r.1) r.2
  | .sub rd ra rb =>
    let r := subN (s.limbs ra) (s.limbs rb)
    setC (s.write rd .std 0 r.1) r.2
  | .cmp ra rb => setCmp s (cmpN (s.limbs ra) (s.limbs rb))
  | .iszero ra => setZ s (isZeroN (s.limbs ra))
  | .sel rd ra rb cond =>
    s.write rd (s.reg ra).form (s.reg ra).ctx (selectN (flagVal s.flags cond) (s.limbs ra) (s.limbs rb))
  | .cswap ra rb cond =>
    let r := cswapN (flagVal s.flags cond) (s.limbs ra) (s.limbs rb)
    (s.write ra (s.reg ra).form (s.reg ra).ctx r.1).write rb (s.reg rb).form (s.reg rb).ctx r.2
  | .ctxload ra k => (s.clearWhere (taggedWith k)).setSlot k (loadedSlot (s.reg ra).len (mkctx (s.limbs ra)).val)
  | .tomont rd ra k => s.write rd .mont k (tomontT (s.ctx k) (s.limbs ra)).val
  | .montmul rd ra rb k => s.write rd .mont k (mmT (s.ctx k) (s.limbs ra) (s.limbs rb)).val
  | .montsqr rd ra k => s.write rd .mont k (mmT (s.ctx k) (s.limbs ra) (s.limbs ra)).val
  | .frommont rd ra k => s.write rd .std 0 (frommontT (s.ctx k) (s.limbs ra)).val
  | .modexp rd ra rb k => s.write rd .mont k (powOf s ra rb k).val
  | .modexpb rd ra rb rc k => s.drawRng.2.write rd .mont k (blindPowOf s ra rb rc k).val
  | .crvload ra rb rc k =>
    let q := (constOf s ra rb k).val
    (s.clearWhere (pointOf k)).setSlot k
      { s.slot k with
        kvalid := true, a := packed q.1, b := packed q.2.1, b3 := packed q.2.2
        ord := packed (s.limbs rc), ordlen := (s.reg rc).len }
  | .ptload rd ra rb k =>
    let q := (curveOf s ra rb k).val
    s.writePoint rd k { x := q.xm, y := q.ym, z := (s.ctx k).one }
  | .ptinf rd k => s.writePoint rd k (infinity (s.ctx k))
  | .ptadd rd ra rb k => s.writePoint rd k (sumOf s ra rb k).val
  | .ptdbl rd ra k => s.writePoint rd k (sumOf s ra ra k).val
  | .ptaff rd ra rb k =>
    setInf ((s.write rd .std 0 (affineOf s ra k).val.2.1).write rb .std 0 (affineOf s ra k).val.2.2)
      (affineOf s ra k).val.1
  | .scmul rd ra rb k _ => s.writePoint rd k (multipleOf s ra rb k).val

/-- The unit operations of a command all of whose checks hold. -/
def work (s : State) : Instr → List TraceEvent
  | .nop => []
  | .zeroize => []
  | .add _ ra rb => (addT (s.limbs ra) (s.limbs rb)).trace
  | .sub _ ra rb => (subT (s.limbs ra) (s.limbs rb)).trace
  | .cmp ra rb => (cmpT (s.limbs ra) (s.limbs rb)).trace
  | .iszero ra => (isZeroT (s.limbs ra)).trace
  | .sel _ ra rb cond => (selectT (flagVal s.flags cond) (s.limbs ra) (s.limbs rb)).trace
  | .cswap ra rb cond => (cswapT (flagVal s.flags cond) (s.limbs ra) (s.limbs rb)).trace
  | .ctxload ra _ => (mkctx (s.limbs ra)).trace
  | .tomont _ ra k => (cmpT (s.limbs ra) (s.ctx k).m).trace ++ (tomontT (s.ctx k) (s.limbs ra)).trace
  | .montmul _ ra rb k => (mmT (s.ctx k) (s.limbs ra) (s.limbs rb)).trace
  | .montsqr _ ra k => (mmT (s.ctx k) (s.limbs ra) (s.limbs ra)).trace
  | .frommont _ ra k => (frommontT (s.ctx k) (s.limbs ra)).trace
  | .modexp _ ra rb k => (powOf s ra rb k).trace
  | .modexpb _ ra rb rc k =>
    [.rng (blindBytes s.params), .muladd (s.reg rc).len (klimbs s.params),
      .ladd (blindLimbs (s.reg rb).len (s.reg rc).len (klimbs s.params))] ++ (blindPowOf s ra rb rc k).trace
  | .crvload ra rb _ k => (rangeOf s ra rb k).trace ++ (constOf s ra rb k).trace
  | .ptload _ ra rb k => (rangeOf s ra rb k).trace ++ (curveOf s ra rb k).trace
  | .ptinf _ _ => []
  | .ptadd _ ra rb k => (sumOf s ra rb k).trace
  | .ptdbl _ ra k => (sumOf s ra ra k).trace
  | .ptaff _ ra _ k => (affineOf s ra k).trace
  | .scmul _ ra rb k _ =>
    (cmpT (s.limbs rb) (s.order k)).trace ++ (isZeroT (s.limbs (ra + 2))).trace ++ (multipleOf s ra rb k).trace

/-- The model's meaning of a command is its tables' meaning. -/
theorem exec_eq_runChecks (i : Instr) (s : State) :
    exec i s = runChecks s (tagChecks s i)
      (runChecks (entered s i) (valueChecks s i) (complete (work s i) (effect s i))) := by
  cases i
  case modexpb rd ra rb rc k =>
    change execModexpb rd ra rb rc k s = _
    unfold execModexpb
    simp only [tagChecks, valueChecks, runChecks, entered, work, effect, blindPowOf]
    cases deliveredBytes s.drawRng.1 <;> rfl
  all_goals rfl

/-- All that a list of checks can do. -/
theorem runChecks_eq_next (s t : State) (cs : List Check) (rest : StepResult) :
    runChecks s cs rest = .next t ↔
      (firstFailing cs = none ∧ rest = .next t) ∨
      (∃ c, firstFailing cs = some c ∧ t = errorState c.code c.work s) := by
  induction cs with
  | nil => simp [runChecks, firstFailing]
  | cons c cs ih =>
    rw [runChecks, require_eq_next, ih]
    cases h : c.ok <;> simp [firstFailing, h]

/-- Every check of a command holds. -/
def Passes (s : State) (i : Instr) : Prop :=
  firstFailing (tagChecks s i) = none ∧ firstFailing (valueChecks s i) = none

/-- The state a command leaves where every check holds. -/
def finished (s : State) (i : Instr) : State :=
  { effect s i with busy := false, done := true, trace := work s i }

/-- All that a command can do: a check on the tags fails, a check on values fails, or it completes without error. -/
theorem exec_eq_next (i : Instr) (s t : State) :
    exec i s = .next t ↔
      (∃ c, firstFailing (tagChecks s i) = some c ∧ t = errorState c.code c.work s) ∨
      (∃ c, firstFailing (tagChecks s i) = none ∧ firstFailing (valueChecks s i) = some c ∧
        t = errorState c.code c.work (entered s i)) ∨
      (Passes s i ∧ t = finished s i) := by
  rw [exec_eq_runChecks, runChecks_eq_next, runChecks_eq_next, complete_eq_next, Passes, finished]
  grind

theorem exec_of_passes {i : Instr} {s : State} (h : Passes s i) : exec i s = .next (finished s i) :=
  (exec_eq_next i s _).mpr (.inr (.inr ⟨h, rfl⟩))

end Sys2Proof.Machine
end

section
/-! SUPPORT. The command word and its fields (30_encoding.md R91, R95): the two are inverse to each other, mask by mask,
and decoding and encoding of the fields undo each other. -/

namespace Sys2Proof

/-! Fields and words. -/

@[simp] theorem ofWord_toWord (f : Fields) : Fields.ofWord f.toWord = f := by
  simp (disch := decide) only [Fields.ofWord, Fields.toWord, BitVec.extractLsb'_append_eq_of_le,
    BitVec.extractLsb'_append_eq_of_add_le]
  simp

@[simp] theorem toWord_ofWord (w : Word) : (Fields.ofWord w).toWord = w := by
  simp (disch := decide) only [Fields.ofWord, Fields.toWord, BitVec.extractLsb'_append_extractLsb'_eq_extractLsb']
  exact BitVec.extractLsb'_eq_self

theorem ofWord_injective : Function.Injective Fields.ofWord :=
  Function.LeftInverse.injective toWord_ofWord

/-- A word matches a row exactly when each of its fields does. -/
theorem and_eq_iff_fields (w mask pattern : Word) :
    w &&& mask = pattern ↔
      let f := Fields.ofWord w
      let g := Fields.ofWord mask
      Fields.ofWord pattern = ⟨f.op &&& g.op, f.rd &&& g.rd, f.ra &&& g.ra, f.rb &&& g.rb, f.rc &&& g.rc, f.cx &&& g.cx,
        f.fn &&& g.fn⟩ := by
  rw [← ofWord_injective.eq_iff, eq_comm]
  simp only [Fields.ofWord, BitVec.extractLsb'_and]

/-- `fn` with its upper bits 0 is the selector alone. -/
theorem zero_append_selector {fn : BitVec 6} (h : fn.extractLsb' 4 2 = 0#2) : 0#2 ++ fn.extractLsb' 0 4 = fn :=
  h ▸ BitVec.extractLsb'_append_extractLsb' (w := 2) (len := 4)

/-- `fn` with its upper bits 0 is its bit 0 alone. -/
theorem zero_append_noinf {fn : BitVec 6} (h : fn.extractLsb' 1 5 = 0#5) : 0#5 ++ BitVec.ofBool fn[0] = fn := by
  have hbit : BitVec.ofBool fn[0] = fn.extractLsb' 0 1 := by
    ext i hi
    obtain rfl : i = 0 := by omega
    simp
  exact hbit ▸ h ▸ BitVec.extractLsb'_append_extractLsb' (w := 5) (len := 1)

theorem extract_eq_zero_of_mask : ∀ fn : BitVec 6,
    (0#6 = fn &&& 48#6 → fn.extractLsb' 4 2 = 0#2) ∧ (0#6 = fn &&& 62#6 → fn.extractLsb' 1 5 = 0#5) := by
  decide

theorem extract_zero_append_selector (cond : BitVec 4) :
    (0#2 ++ cond).extractLsb' 4 2 = 0#2 ∧ (0#2 ++ cond).extractLsb' 0 4 = cond ∧ (0#2 ++ cond) &&& 48#6 = 0#6 := by
  revert cond
  decide

theorem extract_zero_append_noinf (noinf : Bool) :
    (0#5 ++ BitVec.ofBool noinf).extractLsb' 1 5 = 0#5 ∧ (0#5 ++ BitVec.ofBool noinf)[0] = noinf ∧
      (0#5 ++ BitVec.ofBool noinf) &&& 62#6 = 0#6 := by
  revert noinf
  decide

/-! The checks of the decoder. -/

@[simp] theorem unusedZero_eq_ok (zero : Bool) (i j : Instr) : unusedZero zero i = .ok j ↔ zero = true ∧ i = j := by
  cases zero <;> simp [unusedZero]

@[simp] theorem selectorOk_eq_ok (zero : Bool) (i j : Instr) :
    selectorOk zero i = .ok j ↔ zero = true ∧ i.wellFormed = true ∧ i = j := by
  cases zero <;> by_cases h : i.wellFormed = true <;> simp [selectorOk, h]

/-! Decoding and encoding the fields. -/

theorem decodeFields_encodeFields {i : Instr} (h : i.wellFormed = true) : decodeFields (encodeFields i) = .ok i := by
  cases i <;> simp [decodeFields, encodeFields, extract_zero_append_selector, extract_zero_append_noinf]
  case sel => exact h
  case cswap => exact h

theorem ofNat_of_toNat_eq {op : BitVec 8} {n : Nat} (h : op.toNat = n) : op = BitVec.ofNat 8 n := by
  rw [← h, BitVec.ofNat_toNat, BitVec.setWidth_eq]

theorem encodeFields_of_decodeFields {f : Fields} {i : Instr} (h : decodeFields f = .ok i) :
    encodeFields i = f ∧ i.wellFormed = true := by
  obtain ⟨op, rd, ra, rb, rc, cx, fn⟩ := f
  unfold decodeFields at h
  split at h
  case h_23 => cases h
  all_goals
    rename_i hop
    obtain rfl := ofNat_of_toNat_eq hop
    simp only [unusedZero_eq_ok, selectorOk_eq_ok, Bool.and_eq_true, beq_iff_eq] at h
  case h_7 =>
    obtain ⟨⟨⟨rfl, rfl⟩, hfn⟩, hwf, rfl⟩ := h
    simpa [encodeFields, zero_append_selector hfn] using hwf
  case h_8 =>
    obtain ⟨⟨⟨⟨rfl, rfl⟩, rfl⟩, hfn⟩, hwf, rfl⟩ := h
    simpa [encodeFields, zero_append_selector hfn] using hwf
  case h_22 =>
    obtain ⟨⟨rfl, hfn⟩, rfl⟩ := h
    simp [encodeFields, zero_append_noinf hfn, Instr.wellFormed]
  all_goals
    obtain ⟨hzero, rfl⟩ := h
    simp [encodeFields, Instr.wellFormed, hzero]

theorem decode_encode {i : Instr} (h : i.wellFormed = true) : decode (encode i) = .ok i := by
  rw [decode, encode, ofWord_toWord, decodeFields_encodeFields h]

theorem encode_of_decode {w : Word} {i : Instr} (h : decode w = .ok i) : encode i = w ∧ i.wellFormed = true := by
  obtain ⟨hfields, hwf⟩ := encodeFields_of_decodeFields h
  exact ⟨by rw [encode, hfields, toWord_ofWord], hwf⟩

/-! The opcode map. -/

theorem and_ones_four (x : BitVec 4) : x &&& 15#4 = x := BitVec.and_allOnes
theorem and_ones_two (x : BitVec 2) : x &&& 3#2 = x := BitVec.and_allOnes
theorem and_ones_eight (x : BitVec 8) : x &&& 255#8 = x := BitVec.and_allOnes
theorem and_ones_six (x : BitVec 6) : x &&& 63#6 = x := BitVec.and_allOnes

/-- A command's word matches the row of its name. -/
theorem encode_matches_row (i : Instr) :
    ∃ r ∈ opcodeTable, r.mnemonic = mnemonicOf i ∧ encode i &&& r.mask = r.pattern := by
  cases i <;> simp [opcodeTable, mnemonicOf, and_eq_iff_fields, encode, encodeFields] <;>
    simp [Fields.ofWord, extract_zero_append_selector, extract_zero_append_noinf]

/-- Only SEL and CSWAP have a condition on their selector. -/
theorem selector_assigned_of_wellFormed {i : Instr} (h : i.wellFormed = true)
    (hm : mnemonicOf i = "SEL" ∨ mnemonicOf i = "CSWAP") : (encode i).extractLsb' 0 3 ≠ 7#3 := by
  have hfn : (encode i).extractLsb' 0 3 = (encodeFields i).fn.extractLsb' 0 3 :=
    BitVec.extractLsb'_append_eq_of_add_le (by decide)
  rw [hfn]
  cases i <;> simp [mnemonicOf] at hm
  case sel rd ra rb cond =>
    rw [encodeFields, BitVec.extractLsb'_append_eq_of_add_le (by decide)]
    simpa [Instr.wellFormed, condAssigned] using h
  case cswap ra rb cond =>
    rw [encodeFields, BitVec.extractLsb'_append_eq_of_add_le (by decide)]
    simpa [Instr.wellFormed, condAssigned] using h

/-- Fields that match a row, with an assigned selector, spell a command of its name: the row's mask covers the opcode
and exactly the fields that the decoder wants to be 0. -/
theorem decodeFields_of_matches {f : Fields} {r : OpcodeRow} (hr : r ∈ opcodeTable)
    (h : let g := Fields.ofWord r.mask
      Fields.ofWord r.pattern = ⟨f.op &&& g.op, f.rd &&& g.rd, f.ra &&& g.ra, f.rb &&& g.rb, f.rc &&& g.rc,
        f.cx &&& g.cx, f.fn &&& g.fn⟩)
    (hsel : r.mnemonic = "SEL" ∨ r.mnemonic = "CSWAP" → f.fn.extractLsb' 0 3 ≠ 7#3) :
    ∃ i, decodeFields f = .ok i ∧ mnemonicOf i = r.mnemonic := by
  obtain ⟨op, rd, ra, rb, rc, cx, fn⟩ := f
  obtain ⟨hmask_selector, hmask_noinf⟩ := extract_eq_zero_of_mask fn
  fin_cases hr <;> simp [Fields.ofWord, and_ones_two, and_ones_four, and_ones_six, and_ones_eight] at h hsel
  -- The rows whose mask leaves some of `fn` free, by their place in the opcode map: SCMUL, then CSWAP, then SEL.
  on_goal 22 =>
    obtain ⟨rfl, rfl, hfn⟩ := h
    simp [decodeFields, unusedZero, mnemonicOf, hmask_noinf hfn]
  on_goal 8 =>
    obtain ⟨rfl, rfl, rfl, rfl, hfn⟩ := h
    simp [decodeFields, selectorOk, mnemonicOf, hmask_selector hfn, Instr.wellFormed, condAssigned,
      BitVec.extractLsb'_extractLsb'_of_le, hsel]
  on_goal 7 =>
    obtain ⟨rfl, rfl, rfl, hfn⟩ := h
    simp [decodeFields, selectorOk, mnemonicOf, hmask_selector hfn, Instr.wellFormed, condAssigned,
      BitVec.extractLsb'_extractLsb'_of_le, hsel]
  all_goals simp [decodeFields, unusedZero, mnemonicOf, ← h]

theorem decode_of_matches {w : Word} {r : OpcodeRow} (hr : r ∈ opcodeTable) (h : w &&& r.mask = r.pattern)
    (hsel : r.mnemonic = "SEL" ∨ r.mnemonic = "CSWAP" → w.extractLsb' 0 3 ≠ 7#3) :
    ∃ i, decode w = .ok i ∧ mnemonicOf i = r.mnemonic := by
  rw [and_eq_iff_fields] at h
  refine decodeFields_of_matches hr h fun hm => ?_
  simpa [Fields.ofWord, BitVec.extractLsb'_extractLsb'_of_le] using hsel hm

/-- Every mask covers the opcode, and no two rows have one opcode. -/
theorem rows_disjoint {w : Word} {r q : OpcodeRow} (hr : r ∈ opcodeTable) (hq : q ∈ opcodeTable)
    (h : w &&& r.mask = r.pattern) (h' : w &&& q.mask = q.pattern) : r = q := by
  have full : ∀ r ∈ opcodeTable, r.mask.extractLsb' 24 8 = 255#8 := by decide
  have distinct : ∀ r ∈ opcodeTable, ∀ q ∈ opcodeTable,
      r.pattern.extractLsb' 24 8 = q.pattern.extractLsb' 24 8 → r = q := by decide
  have opcode {p : OpcodeRow} (hp : p ∈ opcodeTable) (hw : w &&& p.mask = p.pattern) :
      p.pattern.extractLsb' 24 8 = w.extractLsb' 24 8 := by
    rw [← hw, BitVec.extractLsb'_and, full p hp, and_ones_eight]
  exact distinct r hr q hq ((opcode hr h).trans (opcode hq h').symm)

end Sys2Proof
end

section
/-! The statements about the command word (30_encoding.md R91 to R97). -/

namespace Sys2Proof

/-- Settles O1: the fields of a word come back from it, and each opcode's arm of the decoder accepts its command's own
fields. -/
theorem decodeOfEncode : Obligations.DecodeOfEncode := fun _ h => decode_encode h

/-- Settles O2: an arm of the decoder accepts the fields of its command only. -/
theorem encodeOfDecode : Obligations.EncodeOfDecode := fun _ _ h => encode_of_decode h

/-- Settles O3: one way by the encoding of the command, the other row by row. -/
theorem decoderAgreesWithOpcodeMap : Obligations.DecoderAgreesWithOpcodeMap := by
  refine ⟨fun w x => ⟨?_, ?_⟩, fun w r hr q hq h h' => rows_disjoint hr hq h h'⟩
  · rintro ⟨i, hdecode, rfl⟩
    obtain ⟨rfl, hwf⟩ := encode_of_decode hdecode
    obtain ⟨r, hr, hname, hmatch⟩ := encode_matches_row i
    exact ⟨r, hr, hname, hmatch, selector_assigned_of_wellFormed hwf⟩
  · rintro ⟨r, hr, rfl, hmatch, hsel⟩
    exact decode_of_matches hr hmatch hsel

/-- Settles O4: each word is decoded by evaluation. -/
theorem writtenWordsDecode : Obligations.WrittenWordsDecode := by
  unfold Obligations.WrittenWordsDecode
  decide

end Sys2Proof
end

section
/-! SUPPORT. Steps and accesses, case by case; words that registers read, written as sums of their fields
(10_state.md R31, R37 to R46); what writes of STATUS, INTEN and VTAG do. -/

namespace Sys2Proof.Machine

/-! Steps and accesses. -/

theorem step_of_sequencer {s : State} {rest : List Event} (h : s.events = .sequencer :: rest) :
    step s = sequencerTurn { s with events := rest } := step_of_events_cons h

theorem sequencerTurn_of_decode {s : State} (hb : s.busy = true) {i : Instr} (h : decode s.cmd = .ok i) :
    sequencerTurn s = exec i s := by
  simp [sequencerTurn, runCommand, hb, h]

theorem sequencerTurn_of_reject {s : State} (hb : s.busy = true) {r : Reject} (h : decode s.cmd = .error r) :
    sequencerTurn s = raise .eIllegal [] s := by
  simp [sequencerTurn, runCommand, hb, h]

theorem sequencerTurn_of_idle {s : State} (hb : s.busy = false) : sequencerTurn s = .next s := by
  simp [sequencerTurn, hb]

theorem hostAccess_read (s : State) (off bytes : Nat) :
    hostAccess s (.read off bytes) = s.answer ((busRead s off bytes).elim .buserror .data) := by
  cases h : busRead s off bytes <;> simp [hostAccess, h]

theorem hostAccess_write_refused {s : State} {off bytes : Nat} {d : Word} (h : busWrite s off bytes d = none) :
    hostAccess s (.write off bytes d) = s.answer .buserror := by
  simp [hostAccess, h]

theorem hostAccess_write_taken {s t : State} {off bytes : Nat} {d : Word} (h : busWrite s off bytes d = some t) :
    hostAccess s (.write off bytes d) = t.answer .taken := by
  simp [hostAccess, h]

theorem busRead_of_unmapped (s : State) {off : Nat} (bytes : Nat) (h : locate off = none) :
    busRead s off bytes = none := by
  simp [busRead, h]

theorem busWrite_of_unmapped (s : State) {off : Nat} (bytes : Nat) (d : Word) (h : locate off = none) :
    busWrite s off bytes d = none := by
  simp [busWrite, h]

/-- An access outside the window is refused. -/
theorem busAccess_outside (s : State) {addr : Nat} (bytes : Nat) (d : Word)
    (h : addr < s.params.base ∨ s.params.base + 0x4000 ≤ addr) :
    busAccess s (.read addr bytes) = s.answer .buserror ∧ busAccess s (.write addr bytes d) = s.answer .buserror := by
  rw [busAccess_read, busAccess_write]
  by_cases hbase : s.params.base ≤ addr
  · have hloc : locate (addr - s.params.base) = none := locate_of_le (by omega)
    rw [if_pos hbase, if_pos hbase, hostAccess_read, busRead_of_unmapped s bytes hloc,
      hostAccess_write_refused (busWrite_of_unmapped s bytes d hloc)]
    exact ⟨rfl, rfl⟩
  · rw [if_neg hbase, if_neg hbase]
    exact ⟨rfl, rfl⟩

/-! Writes of `CMD`. -/

theorem busWrite_cmd_idle {s : State} (hb : s.busy = false) (hf : s.fatal = false) (he : s.err = none) (d : Word) :
    busWrite s 0x14 4 d = some (s.accept d) := by
  have hloc : locate 0x14 = some .cmd := locate_offset .cmd
  rw [busWrite_of_locate s d hloc, if_pos ((writeAllowed_of_unlocked hb hf _).mpr fun _ => he)]
  rfl

theorem busWrite_cmd_refused {s : State} (h : s.busy = true ∨ s.fatal = true ∨ s.err ≠ none) (d : Word) :
    busWrite s 0x14 4 d = none := by
  have hloc : locate 0x14 = some .cmd := locate_offset .cmd
  by_cases hb : s.busy = true
  · exact busWrite_of_busy hb _ d
  · have hb' : s.busy = false := by simpa using hb
    by_cases hf : s.fatal = true
    · rw [← Option.not_isSome_iff_eq_none, busWrite_isSome_of_fatal hb' hf]
      simp
    · have he : s.err ≠ none := by simpa [hb, hf] using h
      rw [busWrite_of_locate s d hloc, condition_errpend hb' (by simpa using hf) he]
      rfl

/-! Words as sums. -/

theorem flagsWord_eq (f : Flags) : flagsWord f = BitVec.ofNat 32
    (f.c.toNat + f.z.toNat * 2 + f.lt.toNat * 4 + f.eq.toNat * 8 + f.gt.toNat * 16 + f.inf.toNat * 32) := by
  obtain ⟨c, z, lt, eq, gt, inf⟩ := f
  revert c z lt eq gt inf
  decide

theorem intenWord_eq (e : Inten) : intenWord e = BitVec.ofNat 32 (e.doneIe.toNat + e.errIe.toNat * 2) := by
  obtain ⟨doneIe, errIe⟩ := e
  revert doneIe errIe
  decide

theorem errWord_injective : Function.Injective errWord := by
  have : ∀ e f : ErrCode, (errWord (some e) = errWord (some f) → e = f) ∧ errWord (some e) ≠ 0 := by
    intro e f; cases e <;> cases f <;> decide
  rintro (_ | e) (_ | f) h
  · rfl
  · exact absurd h.symm (this f f).2
  · exact absurd h (this e e).2
  · exact congrArg some ((this e f).1 h)

theorem errWord_ne_zero_iff (e : Option ErrCode) : (errWord e != 0) = e.isSome := by
  have hzero : errWord e = 0#32 ↔ e = none := errWord_injective.eq_iff (b := none)
  rw [bne, Bool.eq_iff_iff, Option.isSome_iff_ne_none, ne_eq, ← hzero]
  simp

theorem statusWord_eq (s : State) : statusWord s = BitVec.ofNat 32
    (s.busy.toNat + s.done.toNat * 2 + s.err.isSome.toNat * 4 + s.fatal.toNat * 8) := by
  rw [statusWord, errWord_ne_zero_iff]
  generalize s.busy = b, s.done = d, s.err.isSome = e, s.fatal = f
  revert b d e f
  decide

theorem irq_eq (s : State) : s.irq = ((s.done && s.inten.doneIe) || (s.err.isSome && s.inten.errIe)) := by
  rw [State.irq, errWord_ne_zero_iff]

/-! The window. -/

theorem locate_isSome_iff (off : Nat) : (locate off).isSome = true ↔
    off % 4 = 0 ∧ (off < 0x24 ∨ (0x40 ≤ off ∧ off < 0x90) ∨ (0x2000 ≤ off ∧ off < 0x4000)) := by
  unfold locate
  split_ifs with h1 h2 h3 h4 h5
  all_goals simp only [bne_iff_ne, ne_eq, Bool.and_eq_true, decide_eq_true_eq] at *
  · simp [h1]
  · have : off / 4 < 9 := by omega
    simp [this]
    omega
  · simp; omega
  · simp; omega
  · simp; omega
  · simp; omega

/-! `VTAG` and `CTXTAG`. -/

theorem writeVtag_eq (s : State) (i : VIdx) (d : Word) : writeVtag s i d =
    if 512 ≤ d.toNat ∨ lmax s.params < d.toNat then none
    else if d = 0 then some (s.setReg i VReg.cleared)
    else some (s.setReg i (regOf d.toNat .std 0 0)) := by
  have hhigh : d >>> 9 ≠ 0 ↔ 512 ≤ d.toNat := by
    rw [ne_eq, ← BitVec.toNat_inj, BitVec.toNat_ushiftRight, Nat.shiftRight_eq_div_pow]
    simp
  by_cases hwide : 512 ≤ d.toNat
  · rw [writeVtag, if_pos (by simpa using .inl (hhigh.mpr hwide)), if_pos (.inl hwide)]
  · have hlen : (d.extractLsb' 0 9).toNat = d.toNat := by
      simp [BitVec.extractLsb'_toNat]
      omega
    have hlow : d >>> 9 = 0 := by simpa [hwide] using hhigh
    simp [writeVtag, hlow, hwide, hlen, regOf, VReg.cleared]

theorem vtagWord_eq {r : VReg} (h : r.len < 512) : vtagWord r = BitVec.ofNat 32
      (if r.valid then 2 ^ 31 + r.ctx.val * 2 ^ 20 + formNumber r.form * 2 ^ 16 + r.len else 0) := by
  cases hv : r.valid <;> simp [vtagWord, hv, Nat.mod_eq_of_lt h, Nat.shiftLeft_eq]

theorem lmax_lt {p : Params} (h : LegalParams p) : lmax p ≤ 128 := by
  obtain ⟨hw, ⟨-, -, hmax⟩, -⟩ := h
  rw [lmax]
  rcases hw with hw | hw <;> rw [hw] <;> omega

theorem ctxtagWord_eq {p : Params} {k : Slot} (hp : LegalParams p) (h : SlotOk p k) : ctxtagWord k = BitVec.ofNat 32
      (k.cvalid.toNat * 2 ^ 31 + k.kvalid.toNat * 2 ^ 30 + k.ordlen * 2 ^ 16 + k.clen) := by
  obtain ⟨hempty, hloaded, hnocurve, hcurve⟩ := h
  have hmax := lmax_lt hp
  cases hc : k.cvalid with
  | false => simp [ctxtagWord, hempty hc, Slot.empty]
  | true =>
    obtain ⟨⟨-, hclen⟩, -⟩ := hloaded hc
    cases hk : k.kvalid with
    | false =>
      obtain ⟨-, -, -, -, hordlen⟩ := hnocurve hk
      simp [ctxtagWord, hc, hk, hordlen, Nat.mod_eq_of_lt (show k.clen < 512 by omega)]
    | true =>
      obtain ⟨-, -, ⟨-, hordlen⟩, -⟩ := hcurve hk
      simp [ctxtagWord, hc, hk, Nat.mod_eq_of_lt (show k.clen < 512 by omega),
        Nat.mod_eq_of_lt (show k.ordlen < 512 by omega), Nat.shiftLeft_eq, ← Nat.add_assoc]

theorem len_le_of_regOk {s : State} {r : VReg} (h : RegOk s r) : r.len ≤ lmax s.params := by
  obtain ⟨hcleared, hvalid, -⟩ := h
  cases hv : r.valid with
  | false => simp [hcleared hv, VReg.cleared]
  | true => exact (hvalid hv).2.1

/-! The configuration registers. -/

theorem cfg0Word_eq {p : Params} (hp : LegalParams p) : cfg0Word p = BitVec.ofNat 32
    (p.w + lmax p * 2 ^ 8 + 16 * 2 ^ 20 + 4 * 2 ^ 25 + p.win * 2 ^ 28) := by
  have hmax := lmax_lt hp
  obtain ⟨hw, -, ⟨-, hwin⟩, -⟩ := hp
  rw [cfg0Word, Nat.mod_eq_of_lt (show p.w < 256 by omega), Nat.mod_eq_of_lt (show lmax p < 4096 by omega),
    Nat.mod_eq_of_lt (show p.win < 8 by omega)]
  simp only [Nat.shiftLeft_eq]

theorem cfg1Word_eq {p : Params} (hp : LegalParams p) : cfg1Word p = BitVec.ofNat 32 p.blindBits := by
  obtain ⟨-, -, -, ⟨-, -, hblind⟩, -⟩ := hp
  rw [cfg1Word, Nat.mod_eq_of_lt (by omega)]

theorem busRead_of_alwaysReadable (s : State) {r : WinReg} (h : alwaysReadable r = true) :
    busRead s r.offset 4 = readReg s r := by
  rw [busRead_of_locate s (locate_offset r), if_pos]
  cases s.condition <;> simp [readAllowed, h]

/-! `STATUS` and `INTEN`. -/

theorem and_not_eq_zero_iff {w : Nat} (x m : BitVec w) : x &&& ~~~m = 0 ↔ x &&& m = x := by
  constructor <;> intro h <;> ext t ht
  · have hbit := congrArg (·.getLsbD t) h
    simpa [ht] using hbit
  · have hbit := congrArg (·.getLsbD t) h
    simpa [ht] using hbit

/-- A word with no bit outside bits 1:0 is below 4. -/
theorem and_not_three_eq_zero_iff (d : Word) : d &&& ~~~(3 : Word) = 0 ↔ d.toNat < 4 := by
  have hmod : (d &&& 3).toNat = d.toNat % 4 := Nat.and_two_pow_sub_one_eq_mod d.toNat 2
  rw [and_not_eq_zero_iff, ← BitVec.toNat_inj, hmod]
  omega

theorem and_not_two_eq_zero_iff (d : Word) : d &&& ~~~(2 : Word) = 0 ↔ d = 2 ∨ d = 0 := by
  constructor
  · intro h
    have hsmall : d.toNat < 4 := by
      rw [← and_not_three_eq_zero_iff, show ~~~(3 : Word) = ~~~2 &&& ~~~3 from rfl, ← BitVec.and_assoc, h]
      exact BitVec.zero_and
    have hcase : ∀ x < 4, BitVec.ofNat 32 x &&& ~~~(2 : Word) = 0 → BitVec.ofNat 32 x = 2 ∨ BitVec.ofNat 32 x = 0 := by
      decide
    simpa using hcase d.toNat hsmall (by simpa using h)
  · rintro (rfl | rfl) <;> rfl

theorem writeStatus_eq (s : State) (d : Word) : writeStatus s d =
    if d = 2 then some { s with done := false } else if d = 0 then some s else none := by
  by_cases h : d &&& ~~~(2 : Word) = 0
  · rcases (and_not_two_eq_zero_iff d).mp h with rfl | rfl <;> simp [writeStatus]
  · obtain ⟨h2, h0⟩ := not_or.mp (mt (and_not_two_eq_zero_iff d).mpr h)
    rw [writeStatus, if_pos (bne_iff_ne.mpr h), if_neg h2, if_neg h0]

theorem writeInten_eq (s : State) (d : Word) : writeInten s d = if d.toNat < 4 then
        some { s with inten := { doneIe := d.getLsbD 0, errIe := d.getLsbD 1 } } else none := by
  by_cases h : d &&& ~~~(3 : Word) = 0
  · rw [writeInten, if_neg (by simpa using h), if_pos ((and_not_three_eq_zero_iff d).mp h)]
  · rw [writeInten, if_pos (bne_iff_ne.mpr h), if_neg (mt (and_not_three_eq_zero_iff d).mpr h)]

/-! Registers and slots at reset. -/

theorem regOk_cleared (s : State) : RegOk s VReg.cleared :=
  ⟨fun _ => rfl, fun h => absurd h (by decide), fun _ => rfl, fun h => absurd rfl h, fun h => absurd h (by decide)⟩

theorem slotOk_empty (p : Params) : SlotOk p Slot.empty :=
  ⟨fun _ => rfl, fun h => absurd h (by decide), fun _ => ⟨rfl, rfl, rfl, rfl, rfl⟩, fun h => absurd h (by decide)⟩

end Sys2Proof.Machine
end

section
/-! The statements about single steps, the register window and reset (10_state.md; 20_memory.md R61, R65 to R67;
70_reset_and_hazards.md R270 to R272). -/

namespace Sys2Proof.Machine

/-- Settles O5: by the head of the list of events. -/
theorem stepRunsDecodedCommand : Obligations.StepRunsDecodedCommand := by
  intro s rest
  refine ⟨fun i hb hi => ⟨fun he => ?_, fun he => ?_⟩, fun hb => ⟨fun he => ?_, fun he => ?_⟩,
    fun off bytes d => ⟨fun he => ?_, fun he => ?_⟩, fun addr bytes d hout he => ?_⟩
  · rw [step_of_sequencer he, sequencerTurn_of_decode (s := { s with events := rest }) hb hi]
  · rw [step_of_events_nil he, sequencerTurn_of_decode hb hi]
  · rw [step_of_sequencer he, sequencerTurn_of_idle (s := { s with events := rest }) hb]
  · rw [step_of_events_nil he, sequencerTurn_of_idle hb]
  · rw [step_of_events_cons he, takeEvent, busAccess_read, if_pos (by simp)]
    simp
  · rw [step_of_events_cons he, takeEvent, busAccess_write, if_pos (by simp)]
    simp
  · obtain ⟨hread, hwrite⟩ := busAccess_outside { s with events := rest } bytes d hout
    rcases he with he | he
    · rw [step_of_events_cons he, takeEvent, hread]; rfl
    · rw [step_of_events_cons he, takeEvent, hwrite]; rfl

/-- Settles O6: the turn of an accepted word that does not decode raises E_ILLEGAL, whose class sets FATAL. -/
theorem illegalWordCompletesWithError : Obligations.IllegalWordCompletesWithError := by
  intro s r rest hb hr
  refine ⟨fun he => ?_, fun he => ?_⟩
  · rw [step_of_sequencer he, sequencerTurn_of_reject (s := { s with events := rest }) hb hr]
    simp [raise, errorState, errClass]
  · rw [step_of_events_nil he, sequencerTurn_of_reject hb hr]
    simp [raise, errorState, errClass]

/-- Settles O7: in IDLE the write accepts the command; in each other condition it is refused. -/
theorem commandAcceptance : Obligations.CommandAcceptance := by
  intro s d
  refine ⟨fun hb hf he => ?_, fun h => ?_⟩
  · rw [hostAccess_write_taken (busWrite_cmd_idle hb hf he d)]
    rfl
  · rw [hostAccess_write_refused (busWrite_cmd_refused h d)]
    rfl

/-- Settles O13: both sides are a bit of the six flags; the cases are finite. -/
theorem selectedFlag : Obligations.SelectedFlag := by
  rintro ⟨c, z, lt, eq, gt, inf⟩ cond h
  revert c z lt eq gt inf cond
  decide

/-- Settles O40: the words by evaluation, and `errWord` is injective. -/
theorem errorWords : Obligations.ErrorWords := ⟨rfl, rfl, rfl, fun _ _ h => errWord_injective h⟩

/-- Settles O43: what a write to `ERR` does in each condition, and that `CMD` refuses while an error is pending. -/
theorem returnFromError : Obligations.ReturnFromError := by
  intro s d e hb
  have hloc : locate 0x18 = some .err := locate_offset .err
  refine ⟨fun hf => ?_, fun hf => ?_, fun he => ?_⟩
  · have hwrite : busWrite s 0x18 4 d = some s.clearErr := by
      rw [busWrite_of_unlocked hb hf d hloc (by simp)]
      simp [writeReg, writeErr, hf]
    rw [hostAccess_write_taken hwrite]
    rfl
  · have hwrite : busWrite s 0x18 4 d = none := by
      rw [← Option.not_isSome_iff_eq_none, busWrite_isSome_of_fatal hb hf]
      simp
    rw [hostAccess_write_refused hwrite]
    rfl
  · rw [hostAccess_write_refused (busWrite_cmd_refused (.inr (.inr he)) e)]
    exact ⟨hb, rfl⟩

/-- Settles O46: an access is its answer recorded, after the effect of a write that is taken. -/
theorem readsAndRefusalsChangeNothing : Obligations.ReadsAndRefusalsChangeNothing := by
  intro s off bytes d
  refine ⟨⟨_, hostAccess_read s off bytes, fun x hx => ?_, fun hnone => ?_⟩, fun h => ?_, fun t h => ?_⟩
  · rw [hx]; rfl
  · rw [hnone]; rfl
  · exact hostAccess_write_refused h
  · exact hostAccess_write_taken h

/-- Settles O44: the offsets that `locate` maps, by its ranges. -/
theorem windowMap : Obligations.WindowMap := by
  intro off
  refine ⟨locate_isSome_iff off, fun i => locate_offset (.vtag i), fun k => locate_offset (.ctxtag k), locate_data, ?_⟩
  rintro s bytes d (hwidth | hunmapped)
  · exact ⟨busRead_width s off hwidth, busWrite_width s off d hwidth⟩
  · exact ⟨busRead_of_unmapped s bytes hunmapped, busWrite_of_unmapped s bytes d hunmapped⟩

/-- Settles O47: what `writeVtag` does for each datum. -/
theorem tagWrite : Obligations.TagWrite := by
  intro s i d hb hf
  have hwrite : busWrite s (0x40 + 4 * i.val) 4 d = writeVtag s i d :=
    busWrite_of_unlocked hb hf d (locate_offset (.vtag i)) (by simp)
  rw [hwrite, writeVtag_eq]
  refine ⟨fun h => if_pos h, ?_, fun h1 h2 h3 => ?_⟩
  · rintro rfl
    simp
    rfl
  · have hd : d ≠ 0 := by rintro rfl; simp at h1
    rw [if_neg (by omega), if_neg hd]
    rfl

/-- Settles O50: the fields of both words fit, by the invariant's bounds on lengths. -/
theorem tagReads : Obligations.TagReads := by
  intro s i k hinv hb hf
  obtain ⟨hp, hregs, hslots, -⟩ := hinv
  have hlen := len_le_of_regOk (hregs i)
  have hmax := lmax_lt hp
  constructor
  · exact (busRead_of_unlocked hb hf (locate_offset (.vtag i))).trans (congrArg some (vtagWord_eq (by omega)))
  · exact (busRead_of_unlocked hb hf (locate_offset (.ctxtag k))).trans (congrArg some (ctxtagWord_eq hp (hslots k)))

/-- Settles O51: each register's word as a sum of its fields, and the conditions that let it be read. -/
theorem controlRegisterReads : Obligations.ControlRegisterReads := by
  intro s hinv p f
  obtain ⟨hp, -⟩ := hinv
  refine ⟨⟨busRead_of_alwaysReadable s (r := .id) rfl, ?_, ?_, ?_⟩, fun hb => ?_, fun hb hf => ⟨?_, ?_, ?_, ?_⟩⟩
  · exact (busRead_of_alwaysReadable s (r := .cfg0) rfl).trans (congrArg some (cfg0Word_eq hp))
  · exact (busRead_of_alwaysReadable s (r := .cfg1) rfl).trans (congrArg some (cfg1Word_eq hp))
  · exact (busRead_of_alwaysReadable s (r := .status) rfl).trans (congrArg some (statusWord_eq s))
  · have hallowed : readAllowed s.condition .err = true := by
      cases hf : s.fatal with
      | true => rw [condition_fatal hb hf]; rfl
      | false => exact readAllowed_of_unlocked hb hf .err
    exact (busRead_of_locate s (locate_offset .err)).trans (if_pos hallowed)
  · exact busRead_of_unlocked hb hf (locate_offset .ctrl)
  · exact busRead_of_unlocked hb hf (locate_offset .cmd)
  · exact (busRead_of_unlocked hb hf (locate_offset .flags)).trans (congrArg some (flagsWord_eq f))
  · exact (busRead_of_unlocked hb hf (locate_offset .inten)).trans (congrArg some (intenWord_eq s.inten))

/-- Settles O52: what each write does, by its register. -/
theorem controlRegisterWrites : Obligations.ControlRegisterWrites := by
  intro s d
  refine ⟨fun hb hf => ⟨fun hd => ?_, ?_, ?_, ?_⟩, irq_eq s⟩
  · exact (busWrite_of_unlocked hb hf d (locate_offset .ctrl) (by simp)).trans (if_neg (by simpa using hd))
  · exact (busWrite_of_unlocked hb hf d (locate_offset .status) (by simp)).trans (writeStatus_eq s d)
  · exact (busWrite_of_unlocked hb hf d (locate_offset .inten) (by simp)).trans (writeInten_eq s d)
  · have readonly : ∀ r ∈ [WinReg.id, .cfg0, .cfg1, .flags, .ctxtag 0, .ctxtag 1, .ctxtag 2, .ctxtag 3],
        busWrite s r.offset 4 d = none := by
      intro r hr
      fin_cases hr <;> exact busWrite_of_unlocked hb hf d (locate_offset _) (by simp)
    exact (List.forall_mem_map (P := fun off => busWrite s off 4 d = none)).mpr readonly

/-- Settles O53: both resets are `resetBlock`, every field of which is a constant. -/
theorem resetClearsEverything : Obligations.ResetClearsEverything := by
  intro s rest isReset
  have hflags : flagsWord State.reset.flags = 0 := by decide
  have hreset (t : State) (ht : t.params = s.params) : isReset t.resetBlock :=
    ⟨fun i => reg_reset i, fun k => slot_reset k, ⟨hflags, rfl, rfl, rfl, rfl, rfl⟩, rfl, rfl, ht⟩
  have hloc : locate 0x0C = some .ctrl := locate_offset .ctrl
  refine ⟨fun he => ⟨_, step_of_events_cons he, hreset _ rfl, rfl⟩, fun hb => ?_, fun hb => busWrite_of_busy hb _ _,
    fun i => reg_reset i, fun k => slot_reset k, ⟨hflags, rfl, rfl, rfl, rfl, rfl⟩, rfl, rfl, rfl⟩
  refine ⟨s.resetBlock, ?_, hreset s rfl, rfl⟩
  have hallowed : writeAllowed s.condition .ctrl = true := by
    cases hf : s.fatal with
    | true => rw [condition_fatal hb hf]; rfl
    | false => exact (writeAllowed_of_unlocked hb hf .ctrl).mpr (by simp)
  rw [busWrite_of_locate s 1 hloc, if_pos hallowed]
  rfl

/-- Settles O54: registers and slots are empty, and no error is pending. -/
theorem invariantAtReset : Obligations.InvariantAtReset :=
  ⟨by decide, fun i => reg_reset i ▸ regOk_cleared _, fun k => slot_reset k ▸ slotOk_empty _, by decide⟩

end Sys2Proof.Machine
end

section
/-! SUPPORT. What every command can do, read off its tables: the codes it can end with, the state an error or a success
leaves, who writes which register, flag and slot (10_state.md R25, R26, R29 to R34; 60_exceptions.md R242 to R249). -/

namespace Sys2Proof.Machine

/-! Checks and codes. -/

theorem mem_of_firstFailing {cs : List Check} {c : Check} (h : firstFailing cs = some c) : c ∈ cs :=
  List.mem_of_find?_eq_some h

/-- The codes of the checks on the tags are those of steps 1 to 6, and come before any work. -/
theorem tagChecks_codes {s : State} {i : Instr} {c : Check} (h : c ∈ tagChecks s i) :
    c.code ∈ tagCodes ∧ c.code ∈ codesOf i ∧ c.work = [] := by
  revert c
  cases i <;> simp [tagChecks, tagCodes, codesOf]

/-- The codes of the checks on values are of no step 1 to 6. -/
theorem valueChecks_codes {s : State} {i : Instr} {c : Check} (h : c ∈ valueChecks s i) :
    c.code ∉ tagCodes ∧ c.code ∈ codesOf i := by
  revert c
  cases i <;> simp [valueChecks, tagCodes, codesOf]

/-- The randomness port is asked by MODEXPB only, whose only check on values is the port's. -/
theorem entered_of_code_ne {s : State} {i : Instr} {c : Check} (h : c ∈ valueChecks s i) (hc : c.code ≠ .eRng) :
    entered s i = s := by
  cases i
  case modexpb => exact absurd (congrArg Check.code (List.mem_singleton.mp h)) hc
  all_goals rfl

theorem entered_eq (s : State) (i : Instr) :
    entered s i = { s with rng := (entered s i).rng, rngCount := (entered s i).rngCount } := by
  cases i <;> simp [entered, drawRng_eq]

/-! What is left alone. -/

/-- An effect leaves the control registers, the configuration, the events and the answers. -/
theorem effect_frame (s : State) (i : Instr) :
    ((effect s i).err = s.err ∧ (effect s i).fatal = s.fatal ∧ (effect s i).cmd = s.cmd ∧
      (effect s i).inten = s.inten) ∧
    (effect s i).params = s.params ∧ (effect s i).events = s.events ∧ (effect s i).answers = s.answers := by
  cases i <;> simp [effect]

@[simp] theorem effect_err (s : State) (i : Instr) : (effect s i).err = s.err := (effect_frame s i).1.1

/-! The end of a command. -/

/-- The state a command that ends with a code leaves. -/
theorem exec_error {i : Instr} {s t : State} {e : ErrCode} (hs : s.err = none) (h : exec i s = .next t)
    (he : t.err = some e) :
    ∃ c, c.code = e ∧
      ((firstFailing (tagChecks s i) = some c ∧ t = errorState e [] s) ∨
        (firstFailing (tagChecks s i) = none ∧ firstFailing (valueChecks s i) = some c ∧
          t = errorState e c.work (entered s i))) := by
  rcases (exec_eq_next i s t).mp h with ⟨c, hc, rfl⟩ | ⟨c, htag, hc, rfl⟩ | ⟨-, rfl⟩
  · obtain rfl : c.code = e := Option.some.inj he
    obtain ⟨-, -, hwork⟩ := tagChecks_codes (mem_of_firstFailing hc)
    exact ⟨c, rfl, .inl ⟨hc, by rw [hwork]⟩⟩
  · obtain rfl : c.code = e := Option.some.inj he
    exact ⟨c, rfl, .inr ⟨htag, hc, rfl⟩⟩
  · simp [finished, hs] at he

/-- The state a command that ends without one leaves. -/
theorem exec_success {i : Instr} {s t : State} (h : exec i s = .next t) (he : t.err = none) :
    Passes s i ∧ t = finished s i := by
  rcases (exec_eq_next i s t).mp h with ⟨c, hc, rfl⟩ | ⟨c, htag, hc, rfl⟩ | hdone
  · simp at he
  · simp at he
  · exact hdone

theorem contract_iff_classNumber (e : ErrCode) : (errClass e == .contract) = decide (classNumber (errClass e) = 1) := by
  cases e <;> rfl

theorem exec_exists_next (i : Instr) (s : State) : ∃ t, exec i s = .next t ∧ t.busy = false ∧ t.done = true := by
  cases htag : firstFailing (tagChecks s i) with
  | some c => exact ⟨_, (exec_eq_next i s _).mpr (.inl ⟨c, htag, rfl⟩), rfl, rfl⟩
  | none =>
    cases hval : firstFailing (valueChecks s i) with
    | some c => exact ⟨_, (exec_eq_next i s _).mpr (.inr (.inl ⟨c, htag, hval, rfl⟩)), rfl, rfl⟩
    | none => exact ⟨_, exec_of_passes ⟨htag, hval⟩, rfl, rfl⟩

theorem sequencerTurn_exists_next (s : State) : ∃ t, sequencerTurn s = .next t := by
  cases hb : s.busy with
  | false => exact ⟨s, sequencerTurn_of_idle hb⟩
  | true =>
    cases hd : decode s.cmd with
    | error r => exact ⟨_, sequencerTurn_of_reject hb hd⟩
    | ok i =>
      obtain ⟨t, ht, -⟩ := exec_exists_next i s
      exact ⟨t, (sequencerTurn_of_decode hb hd).trans ht⟩

theorem firstFailing_cons_code (c : Check) (cs : List Check) :
    (firstFailing (c :: cs)).map Check.code = if c.ok then (firstFailing cs).map Check.code else some c.code := by
  cases h : c.ok <;> simp [firstFailing, h]

/-! The order of the checks on the tags (R246). -/

theorem exists_mem_tripleRegs (b : VIdx) (p : VIdx → Prop) :
    (∃ r ∈ tripleRegs b, p r) ↔ b.val ≤ 13 ∧ (p b ∨ p (b + 1) ∨ p (b + 2)) := by
  by_cases h : b.val ≤ 13 <;> simp [tripleRegs, h]

/-- R246 kind by kind is R246 command by command: for each command the lists of its operands leave its own checks. -/
theorem firstTagError_eq (i : Instr) (s : State) :
    firstTagError i s = (firstFailing (tagChecks s i)).map Check.code := by
  cases i
  all_goals
    simp only [firstTagError, tagChecks, firstFailing_cons_code, Instr.wellFormed, pointFields, usedSlot, sourceRegs,
      neededForms, agreeingPair, plainPair, neededLens, needsCurve]
    simp [firstFailing, isValid, isStd, isMont, sameForm, isSelectable, sameLen, hasLen, isBase, slotLoaded,
      curveLoaded, tripleValid, tripleTagged, exists_mem_tripleRegs]
  all_goals grind

theorem firstFailing_eq_none {cs : List Check} : firstFailing cs = none ↔ ∀ c ∈ cs, c.ok = true := by
  simp [firstFailing]

/-! Registers, slots and flags after a command. -/

theorem reg_effect_ptaff (s : State) (rd ra rb r : VIdx) (k : CIdx) :
    (effect s (.ptaff rd ra rb k)).reg r =
      if r = rb then mkReg .std 0 (affineOf s ra k).val.2.2
      else if r = rd then mkReg .std 0 (affineOf s ra k).val.2.1 else s.reg r := by
  rw [effect, reg_setInf, reg_write, reg_write]

theorem slot_effect_ptaff (s : State) (rd ra rb : VIdx) (k k' : CIdx) :
    (effect s (.ptaff rd ra rb k)).slot k' = s.slot k' := by
  rw [effect, slot_setInf, slot_write, slot_write]

@[simp] theorem reg_drawRng (s : State) (r : VIdx) : s.drawRng.2.reg r = s.reg r := by
  rw [State.reg, drawRng_v, State.reg]

@[simp] theorem slot_drawRng (s : State) (k : CIdx) : s.drawRng.2.slot k = s.slot k := by
  rw [State.slot, drawRng_c, State.slot]

/-- Who writes which slot. -/
theorem slot_effect {s : State} {i : Instr} (hi : i ≠ .zeroize) {k : CIdx} (h : (effect s i).slot k ≠ s.slot k) :
    (∃ ra, i = .ctxload ra k) ∨ (∃ ra rb rc, i = .crvload ra rb rc k) := by
  have hother {k' : CIdx} {S : State} {x : Slot} (hS : ∀ k, S.slot k = s.slot k)
      (h : (S.setSlot k' x).slot k ≠ s.slot k) : k = k' := by
    by_contra hne
    exact h (by rw [slot_setSlot_ne _ _ hne, hS])
  cases i
  case zeroize => exact absurd rfl hi
  case ctxload ra cx =>
    obtain rfl := hother (fun _ => rfl) h
    exact .inl ⟨ra, rfl⟩
  case crvload ra rb rc cx =>
    obtain rfl := hother (fun _ => rfl) h
    exact .inr ⟨ra, rb, rc, rfl⟩
  case ptaff => exact absurd (slot_effect_ptaff ..) h
  case modexpb => exact absurd (slot_drawRng s k) h
  all_goals exact absurd rfl h

/-- Who writes which flag and which slot. -/
theorem effect_writes {s : State} {i : Instr} (hi : i ≠ .zeroize) :
    ((effect s i).flags.c ≠ s.flags.c → (∃ rd ra rb, i = .add rd ra rb) ∨ (∃ rd ra rb, i = .sub rd ra rb)) ∧
    ((effect s i).flags.z ≠ s.flags.z → ∃ ra, i = .iszero ra) ∧
    (((effect s i).flags.lt, (effect s i).flags.eq, (effect s i).flags.gt) ≠ (s.flags.lt, s.flags.eq, s.flags.gt) →
      ∃ ra rb, i = .cmp ra rb) ∧
    ((effect s i).flags.inf ≠ s.flags.inf → ∃ rd ra rb cx, i = .ptaff rd ra rb cx) ∧
    (∀ k : CIdx, (effect s i).slot k ≠ s.slot k →
      (∃ ra, i = .ctxload ra k) ∨ (∃ ra rb rc, i = .crvload ra rb rc k)) := by
  refine ⟨?_, ?_, ?_, ?_, fun k h => slot_effect hi h⟩ <;> cases i <;> simp [effect] at hi ⊢

/-! The forms of what is written. -/

/-- The forms of the registers that a command writes or clears. -/
def writtenForms : Instr → List Form
  | .sel _ _ _ _ => [.std, .mont]
  | .cswap _ _ _ => [.std, .mont]
  | .tomont _ _ _ => [.mont]
  | .montmul _ _ _ _ => [.mont]
  | .montsqr _ _ _ => [.mont]
  | .modexp _ _ _ _ => [.mont]
  | .modexpb _ _ _ _ _ => [.mont]
  | .ptload _ _ _ _ => [.px, .py, .pz]
  | .ptinf _ _ => [.px, .py, .pz]
  | .ptadd _ _ _ _ => [.px, .py, .pz]
  | .ptdbl _ _ _ => [.px, .py, .pz]
  | .scmul _ _ _ _ _ => [.px, .py, .pz]
  | _ => [.std]

/-- The checks on the tags of SEL and CSWAP leave no point coordinate. -/
theorem selectable_of_checks {s : State} {ra rb : VIdx}
    (h : (isSelectable s ra && isSelectable s rb && sameForm s ra rb) = true) :
    (s.reg ra).form ∈ [Form.std, .mont] ∧ (s.reg rb).form ∈ [Form.std, .mont] := by
  simp only [isSelectable, Bool.and_eq_true, Bool.or_eq_true, beq_iff_eq] at h
  simp [h]

@[simp] theorem mkReg_form {w : Nat} (form : Form) (cx : CIdx) (a : Limbs w) : (mkReg form cx a).form = form := rfl

/-- A command leaves no other form in a register that it changes. -/
theorem effect_form {s : State} {i : Instr} (h : firstFailing (tagChecks s i) = none) {r : VIdx}
    (hr : (effect s i).reg r ≠ s.reg r) : ((effect s i).reg r).form ∈ writtenForms i := by
  rw [firstFailing_eq_none] at h
  revert hr
  cases i
  case ptaff =>
    simp only [reg_effect_ptaff, writtenForms]
    split_ifs <;> simp
  case sel rd ra rb cond =>
    simp only [tagChecks, List.forall_mem_cons] at h
    obtain ⟨-, -, hselectable, -⟩ := h
    obtain ⟨ha, -⟩ := selectable_of_checks hselectable
    simp only [effect, writtenForms, reg_write]
    split_ifs
    · exact fun _ => ha
    · simp
  case cswap ra rb cond =>
    simp only [tagChecks, List.forall_mem_cons] at h
    obtain ⟨-, -, hselectable, -⟩ := h
    obtain ⟨ha, hb⟩ := selectable_of_checks hselectable
    simp only [effect, writtenForms, reg_write]
    split_ifs
    · exact fun _ => hb
    · exact fun _ => ha
    · simp
  case nop | cmp | iszero => exact absurd rfl
  case zeroize => simp [effect, writtenForms, VReg.cleared]
  all_goals
    simp only [effect, reg_write, reg_writePoint, reg_setC, reg_setSlot, reg_clearWhere, reg_drawRng, writtenForms]
    split_ifs <;> simp [VReg.cleared]

/-! What the host writes. -/

/-- What a write does: of the registers it clears all, makes one a zero, replaces one word of one, or changes none. -/
theorem writeReg_reg {s t : State} {d : Word} {w : WinReg} (h : writeReg s d w = some t) :
    t = s.resetBlock ∨
    (∃ i, t = s.setReg i VReg.cleared) ∨
    (∃ i, 1 ≤ d.toNat ∧ d.toNat ≤ lmax s.params ∧ t = s.setReg i (regOf d.toNat .std 0 0)) ∨
    (∃ (i : VIdx) (j : Fin 128),
      ((s.reg i).valid = true ∧ (s.reg i).form = .std ∧ j.val < (s.reg i).len * s.params.w / 32) ∧
      t = s.setReg i { s.reg i with data := setDataWord (s.reg i).data j d }) ∨
    (∃ b e, t = { s with done := b, inten := e }) ∨ (s.fatal = false ∧ t = s.clearErr) ∨
    (w = .cmd ∧ t = s.accept d) := by
  cases w with
  | ctrl =>
    simp only [writeReg, writeCtrl, Option.ite_none_right_eq_some, Option.some.injEq] at h
    exact .inl h.2.symm
  | status =>
    simp only [writeReg, writeStatus_eq] at h
    split_ifs at h <;> cases h
    · exact .inr (.inr (.inr (.inr (.inl ⟨false, s.inten, rfl⟩))))
    · exact .inr (.inr (.inr (.inr (.inl ⟨s.done, s.inten, rfl⟩))))
  | cmd =>
    cases h
    simp
  | err =>
    simp only [writeReg, writeErr, Option.ite_none_left_eq_some, Option.some.injEq] at h
    simp [h.1, ← h.2]
  | inten =>
    simp only [writeReg, writeInten_eq, Option.ite_none_right_eq_some, Option.some.injEq] at h
    exact .inr (.inr (.inr (.inr (.inl ⟨_, _, h.2.symm⟩))))
  | vtag i =>
    simp only [writeReg, writeVtag_eq] at h
    split_ifs at h with hlong hzero <;> cases h
    · exact .inr (.inl ⟨i, rfl⟩)
    · have : d.toNat ≠ 0 := fun h0 => hzero (BitVec.eq_of_toNat_eq h0)
      exact .inr (.inr (.inl ⟨i, by omega, by omega, rfl⟩))
  | data i j =>
    simp only [writeReg_data, Option.ite_none_right_eq_some, Option.some.injEq] at h
    exact .inr (.inr (.inr (.inl ⟨i, j, h.1, h.2.symm⟩)))
  | _ => cases h

/-- A write that is taken, by the register it is made to. -/
theorem busWrite_eq_some {s t : State} {off bytes : Nat} {d : Word} (h : busWrite s off bytes d = some t) :
    ∃ w, writeAllowed s.condition w = true ∧ writeReg s d w = some t := by
  unfold busWrite at h
  cases hloc : locate off with
  | none => simp [hloc] at h
  | some w =>
    simp only [hloc, Option.ite_none_left_eq_some, Option.ite_none_right_eq_some] at h
    exact ⟨w, h.2⟩

/-- An access of the host that changes a register leaves it STD. -/
theorem hostAccess_form {s : State} {a : Access} {r : VIdx} (h : (hostAccess s a).reg r ≠ s.reg r) :
    ((hostAccess s a).reg r).form = .std := by
  cases a with
  | read off bytes =>
    rw [hostAccess_read] at h
    exact absurd rfl h
  | write off bytes d =>
    cases hw : busWrite s off bytes d with
    | none =>
      rw [hostAccess_write_refused hw] at h
      exact absurd rfl h
    | some t =>
      rw [hostAccess_write_taken hw, reg_answer] at h ⊢
      obtain ⟨w, -, hreg⟩ := busWrite_eq_some hw
      have hset {i : VIdx} {x : VReg} (hx : x.form = .std) (hne : (s.setReg i x).reg r ≠ s.reg r) :
          ((s.setReg i x).reg r).form = .std := by
        rw [reg_setReg] at hne ⊢
        split_ifs at hne ⊢
        · exact hx
        · exact absurd rfl hne
      rcases writeReg_reg hreg with rfl | ⟨i, rfl⟩ | ⟨i, -, -, rfl⟩ | ⟨i, j, ⟨-, hstd, -⟩, rfl⟩ | ⟨b, e, rfl⟩ |
        ⟨-, rfl⟩ | ⟨-, rfl⟩
      · exact congrArg VReg.form (reg_reset r)
      · exact hset rfl h
      · exact hset rfl h
      · exact hset hstd h
      all_goals exact absurd rfl h

/-! Destinations. -/

theorem not_mem_tripleRegs {b r : VIdx} (hb : isBase b = true) (hr : r ∉ tripleRegs b) :
    r ≠ b ∧ r ≠ b + 1 ∧ r ≠ b + 2 := by
  simpa [tripleRegs, isBase.eq_1 b ▸ hb, of_decide_eq_true hb] using hr

/-- The rules of R29 and R26. -/
theorem effect_of_not_mem_destRegs {s : State} {i : Instr} (h : firstFailing (tagChecks s i) = none) {r : VIdx}
    (hr : r ∉ destRegs i) :
    (effect s i).reg r = s.reg r ∨
    ((effect s i).reg r = VReg.cleared ∧
      (i = .zeroize ∨
       (∃ ra, i = .ctxload ra (s.reg r).ctx ∧ (s.reg r).form ≠ .std) ∨
       (∃ ra rb rc, i = .crvload ra rb rc (s.reg r).ctx ∧ (s.reg r).form ≠ .std ∧ (s.reg r).form ≠ .mont))) := by
  rw [firstFailing_eq_none] at h
  have hpoint {b : VIdx} {k : CIdx} {p : Point s.params.w} (hb : isBase b = true) (hr : r ∉ tripleRegs b) :
      (s.writePoint b k p).reg r = s.reg r := by
    obtain ⟨h0, h1, h2⟩ := not_mem_tripleRegs hb hr
    rw [reg_writePoint, if_neg h2, if_neg h1, if_neg h0]
  cases i
  case zeroize => exact .inr ⟨reg_zeroizeAll s r, .inl rfl⟩
  case ctxload ra k =>
    rw [effect, reg_setSlot, reg_clearWhere]
    split_ifs with htag
    · simp only [taggedWith, Bool.and_eq_true, bne_iff_ne, beq_iff_eq] at htag
      obtain ⟨⟨-, hform⟩, rfl⟩ := htag
      exact .inr ⟨rfl, .inr (.inl ⟨ra, rfl, hform⟩)⟩
    · exact .inl rfl
  case crvload ra rb rc k =>
    rw [effect, reg_setSlot, reg_clearWhere]
    split_ifs with htag
    · simp only [pointOf, Bool.and_eq_true, Bool.or_eq_true, beq_iff_eq] at htag
      obtain ⟨⟨-, hform⟩, rfl⟩ := htag
      exact .inr ⟨rfl, .inr (.inr ⟨ra, rb, rc, rfl, by grind⟩)⟩
    · exact .inl rfl
  case ptaff rd ra rb k =>
    simp only [destRegs, List.mem_cons, List.not_mem_nil, or_false, not_or] at hr
    rw [reg_effect_ptaff, if_neg hr.2, if_neg hr.1]
    exact .inl rfl
  case ptload | ptinf | ptadd | ptdbl | scmul =>
    simp only [tagChecks, List.forall_mem_cons, Bool.and_eq_true] at h
    exact .inl (hpoint (by simp [h]) hr)
  case cswap ra rb cond =>
    simp only [destRegs, List.mem_cons, List.not_mem_nil, or_false, not_or] at hr
    rw [effect, reg_write, reg_write, if_neg hr.2, if_neg hr.1]
    exact .inl rfl
  case modexpb rd ra rb rc k =>
    rw [effect, reg_write, if_neg (by simpa [destRegs] using hr), reg_drawRng]
    exact .inl rfl
  case nop | cmp | iszero => exact .inl rfl
  all_goals exact .inl (reg_setReg_ne s _ (by simpa [destRegs] using hr))

end Sys2Proof.Machine
end

section
/-! The statements about every command: its next state, its codes, the order of its checks, what it writes
(60_exceptions.md R242 to R249; 10_state.md R25 to R34). -/

namespace Sys2Proof.Machine

/-- Settles O8: a step is an access, a reset or a turn, and a command ends at its first failing check or completes. -/
theorem everyStepGivesNextState : Obligations.EveryStepGivesNextState := by
  refine ⟨fun s => ?_, exec_exists_next⟩
  cases he : s.events with
  | nil => exact step_of_events_nil he ▸ sequencerTurn_exists_next s
  | cons e rest =>
    rw [step_of_events_cons he]
    cases e with
    | access a => exact ⟨_, rfl⟩
    | sequencer => exact sequencerTurn_exists_next _
    | hardReset => exact ⟨_, rfl⟩

/-- Settles O23: neither has a check; their effects are the statement. -/
theorem systemCommandsComplete : Obligations.SystemCommandsComplete := fun _ => ⟨rfl, rfl⟩

/-- Settles O39: an error's state is `errorState` of the state at the check. -/
theorem errorChangesNothingElse : Obligations.ErrorChangesNothingElse := by
  intro i s t e hs h he
  obtain ⟨c, rfl, ⟨hc, rfl⟩ | ⟨-, hc, rfl⟩⟩ := exec_error hs h he
  · rw [← contract_iff_classNumber]
    exact ⟨rfl, fun _ => ⟨rfl, rfl⟩⟩
  · rw [← contract_iff_classNumber]
    refine ⟨?_, fun hne => ?_⟩
    · conv_lhs => rw [entered_eq]
      rfl
    · rw [entered_of_code_ne (mem_of_firstFailing hc) hne]
      exact ⟨rfl, rfl⟩

/-- Settles O41: by the codes in the command's tables of checks. -/
theorem codesOfEachCommand : Obligations.CodesOfEachCommand := by
  intro i s t e hs h he
  obtain ⟨c, rfl, ⟨hc, -⟩ | ⟨-, hc, -⟩⟩ := exec_error hs h he
  · exact (tagChecks_codes (mem_of_firstFailing hc)).2.1
  · exact (valueChecks_codes (mem_of_firstFailing hc)).2

/-- Settles O42: the first failing check on the tags, in table order, has the code of R246. -/
theorem tagChecksInOrder : Obligations.TagChecksInOrder := by
  intro i s t hs h
  rw [firstTagError_eq]
  rcases (exec_eq_next i s t).mp h with ⟨c, hc, rfl⟩ | ⟨c, htag, hc, rfl⟩ | ⟨⟨htag, -⟩, rfl⟩
  · rw [hc]
    simp
  · rw [htag]
    simp [(valueChecks_codes (mem_of_firstFailing hc)).1]
  · simp [htag, finished, hs]

/-- Settles O58: each effect, flag by flag and slot by slot; an error writes `ERR` and FATAL only. -/
theorem whoWritesFlagsAndSlots : Obligations.WhoWritesFlagsAndSlots := by
  intro i s t h
  rcases (exec_eq_next i s t).mp h with ⟨c, hc, rfl⟩ | ⟨c, htag, hc, rfl⟩ | ⟨-, rfl⟩
  · obtain ⟨-, hcode, -⟩ := tagChecks_codes (mem_of_firstFailing hc)
    refine ⟨fun _ => ⟨by simp, by simp, by simp, by simp, fun k h => absurd rfl h⟩, ⟨rfl, rfl⟩,
      .inr ⟨c.code, hcode, rfl, ?_⟩, rfl, rfl, rfl, rfl, rfl⟩
    rw [← contract_iff_classNumber, errorState_fatal]
  · obtain ⟨-, hcode⟩ := valueChecks_codes (mem_of_firstFailing hc)
    rw [entered_eq]
    refine ⟨fun _ => ⟨by simp, by simp, by simp, by simp, fun k h => absurd rfl h⟩, ⟨rfl, rfl⟩,
      .inr ⟨c.code, hcode, rfl, ?_⟩, rfl, rfl, rfl, rfl, rfl⟩
    rw [← contract_iff_classNumber, errorState_fatal]
  · obtain ⟨⟨herr, hfatal, hcmd, hinten⟩, hrest⟩ := effect_frame s i
    exact ⟨effect_writes, ⟨rfl, rfl⟩, .inl ⟨herr, hfatal⟩, hcmd, hinten, hrest⟩

/-- Settles O56: the forms each command writes, and what the host can write. -/
theorem whoWritesForms : Obligations.WhoWritesForms := by
  refine ⟨fun i s t r h hr => ?_, fun s a r h => hostAccess_form h⟩
  have hform : (t.reg r).form ∈ writtenForms i := by
    rcases (exec_eq_next i s t).mp h with ⟨c, hc, rfl⟩ | ⟨c, htag, hc, rfl⟩ | ⟨⟨htag, -⟩, rfl⟩
    · exact absurd rfl hr
    · rw [entered_eq] at hr
      exact absurd rfl hr
    · exact effect_form htag hr
  generalize (t.reg r).form = form at hform
  constructor
  · rintro rfl
    cases i <;> simp [writtenForms] at hform ⊢
  · rintro (rfl | rfl | rfl) <;> cases i <;> simp [writtenForms] at hform ⊢

/-- Settles O57: each effect, register by register. -/
theorem onlyDestinationsChange : Obligations.OnlyDestinationsChange := by
  intro i s t r h hr
  rcases (exec_eq_next i s t).mp h with ⟨c, hc, rfl⟩ | ⟨c, htag, hc, rfl⟩ | ⟨⟨htag, -⟩, rfl⟩
  · exact .inl rfl
  · rw [entered_eq]
    exact .inl rfl
  · exact effect_of_not_mem_destRegs htag hr

end Sys2Proof.Machine
end

section
/-! SUPPORT. The Montgomery multiplier (42_montgomery_multiplier.md R152, R153): the negated inverse, the
multiply-accumulate row, one outer step, the outer loop, the final subtraction. -/

namespace Sys2Proof.Machine

/-! The negated inverse. -/

/-- Every round of N0INV squares the error `1 - m0 * inv` (R152). -/
theorem one_sub_mul_n0Loop {w : Nat} (m0 : BitVec w) (rounds : Nat) (inv : BitVec w) :
    1 - m0 * n0Loop m0 rounds inv = (1 - m0 * inv) ^ 2 ^ rounds := by
  induction rounds generalizing inv with
  | zero => simp [n0Loop]
  | succ k ih =>
    have square : 1 - m0 * (inv * (2 - m0 * inv)) = (1 - m0 * inv) ^ 2 := by ring
    rw [n0Loop, ih, square, ← pow_mul, Nat.pow_succ, Nat.mul_comm]

theorem le_two_pow_ceilLog2 (n : Nat) : n ≤ 2 ^ ceilLog2 n := by
  unfold ceilLog2
  split_ifs with h
  · simpa using h
  · have := Nat.lt_log2_self (n := n - 1)
    omega

theorem bitVec_two_pow_eq_zero {w n : Nat} (h : w ≤ n) : (2 : BitVec w) ^ n = 0 := by
  have hcast : ((2 ^ n : Nat) : BitVec w) = 0 := by
    apply BitVec.eq_of_toNat_eq
    rw [BitVec.natCast_eq_ofNat, BitVec.toNat_ofNat, Nat.mod_eq_zero_of_dvd (Nat.pow_dvd_pow 2 h)]
    simp
  simpa using hcast

/-- For an odd limb the error is gone after the last round. -/
theorem mul_n0inv_add_one {w : Nat} {m0 : BitVec w} (hodd : m0.toNat % 2 = 1) : m0 * n0inv m0 + 1 = 0 := by
  obtain ⟨c, hc⟩ : ∃ c : BitVec w, 1 - m0 * 1 = 2 * c := by
    refine ⟨-(m0.toNat / 2 : Nat), ?_⟩
    have hm : m0 = ((2 * (m0.toNat / 2) + 1 : Nat) : BitVec w) := by
      rw [show 2 * (m0.toNat / 2) + 1 = m0.toNat by omega, BitVec.natCast_eq_ofNat, BitVec.ofNat_toNat,
        BitVec.setWidth_eq]
    conv_lhs => rw [hm]
    push_cast
    ring
  have herror := one_sub_mul_n0Loop m0 (ceilLog2 w) 1
  rw [hc, mul_pow, bitVec_two_pow_eq_zero (le_two_pow_ceilLog2 w), zero_mul] at herror
  rw [n0inv]
  linear_combination herror

theorem headD_eq_mod {w : Nat} (m : Limbs w) (hm : m ≠ []) : (m.headD 0).toNat = val m % 2 ^ w := by
  cases m with
  | nil => exact absurd rfl hm
  | cons x xs => simp [Nat.add_mod, Nat.mod_eq_of_lt x.isLt]

/-- `N0` of an odd modulus, as the multiplier uses it (R151). -/
theorem n0inv_spec {w : Nat} (hw : 1 ≤ w) {m : Limbs w} (hodd : val m % 2 = 1) :
    (val m * (n0inv (m.headD 0)).toNat + 1) % 2 ^ w = 0 := by
  have hne : m ≠ [] := by rintro rfl; simp at hodd
  have htwo : 2 ∣ 2 ^ w := dvd_pow_self 2 (by omega)
  have hhead := headD_eq_mod m hne
  have hoddHead : (m.headD 0).toNat % 2 = 1 := by rw [hhead, Nat.mod_mod_of_dvd _ htwo, hodd]
  have h := congrArg BitVec.toNat (mul_n0inv_add_one hoddHead)
  rw [BitVec.toNat_add, BitVec.toNat_mul, hhead] at h
  simpa [Nat.add_mod, Nat.mul_mod] using h

/-! Limb vectors. -/

theorem val_append {w : Nat} (a b : Limbs w) : val (a ++ b) = val a + 2 ^ (w * a.length) * val b := by
  induction a with
  | nil => simp
  | cons x xs ih =>
    rw [List.cons_append, val_cons, ih, val_cons, List.length_cons, Nat.mul_succ, Nat.pow_add]
    ring

@[simp] theorem val_replicate_zero (w n : Nat) : val (List.replicate n (0 : BitVec w)) = 0 := by
  induction n with
  | zero => rfl
  | succ n ih =>
    rw [List.replicate_succ, val_cons, ih, Nat.mul_zero]
    simp

/-! The multiply-accumulate row (R153). -/

theorem toNat_ofNat_shiftRight {w x : Nat} (h : x < 2 ^ w * 2 ^ w) :
    (BitVec.ofNat w (x >>> w)).toNat = x / 2 ^ w := by
  rw [BitVec.toNat_ofNat, Nat.shiftRight_eq_div_pow, Nat.mod_eq_of_lt (Nat.div_lt_of_lt_mul h)]

/-- The sum of one limb of a row fits in two limbs. -/
theorem mac_lt {w : Nat} (t x y c : BitVec w) : t.toNat + x.toNat * y.toNat + c.toNat < 2 ^ w * 2 ^ w := by
  have hx : x.toNat + 1 ≤ 2 ^ w := x.isLt
  have hy : y.toNat + 1 ≤ 2 ^ w := y.isLt
  have ht := t.isLt
  have hc := c.isLt
  nlinarith [Nat.mul_le_mul hx hy]

theorem val_macRow {w : Nat} (y : BitVec w) {t x : Limbs w} (hl : t.length = x.length) (c : BitVec w) :
    val (macRow y t x c).1 + 2 ^ (w * t.length) * (macRow y t x c).2.toNat = val t + val x * y.toNat + c.toNat := by
  induction t generalizing x c with
  | nil =>
    obtain rfl := List.length_eq_zero_iff.mp hl.symm
    simp [macRow]
  | cons t ts ih =>
    obtain ⟨x, xs, rfl⟩ := List.exists_cons_of_length_eq_add_one hl.symm
    have rest := ih (Nat.succ.inj hl) (BitVec.ofNat w ((t.toNat + x.toNat * y.toNat + c.toNat) >>> w))
    rw [toNat_ofNat_shiftRight (mac_lt t x y c)] at rest
    have split := Nat.mod_add_div (t.toNat + x.toNat * y.toNat + c.toNat) (2 ^ w)
    simp only [macRow, val_cons, List.length_cons, Nat.mul_succ, Nat.pow_add, BitVec.toNat_ofNat]
    linear_combination 2 ^ w * rest + split

/-! One outer step (R153). -/

/-- The value of the accumulator, `n` limbs and the top one. -/
def MontAcc.value {w : Nat} (t : MontAcc w) (n : Nat) : Nat := val t.lo + 2 ^ (w * n) * t.hi.toNat

/-- What the multiplier needs of the modulus and its `N0` (R151). -/
structure N0Ok {w : Nat} (m : Limbs w) (n0 : BitVec w) : Prop where
  width : 1 ≤ w
  odd : val m % 2 = 1
  inverse : (val m * n0.toNat + 1) % 2 ^ w = 0

theorem N0Ok.ne_nil {w : Nat} {m : Limbs w} {n0 : BitVec w} (h : N0Ok m n0) : m ≠ [] := by
  rintro rfl
  simpa using h.odd

/-- The low limb of the reduce pass is 0: its multiplier is the one that cancels it. -/
theorem reduce_low_limb {w : Nat} {m : Limbs w} {n0 : BitVec w} (h : N0Ok m n0) {l : Limbs w}
    (hl : l.length = m.length) : 2 ^ w ∣ val (macRow (l.headD 0 * n0) l m 0).1 := by
  have hne : l ≠ [] := fun h0 => h.ne_nil (List.length_eq_zero_iff.mp (by rw [← hl, h0, List.length_nil]))
  have hlimb : 2 ^ w ∣ 2 ^ (w * l.length) := by
    obtain ⟨k, hk⟩ := Nat.exists_eq_succ_of_ne_zero (mt List.length_eq_zero_iff.mp hne)
    rw [hk, Nat.mul_succ, Nat.pow_add]
    exact Nat.dvd_mul_left ..
  rw [← Nat.dvd_add_left (Nat.dvd_mul_right_of_dvd hlimb _), val_macRow _ hl]
  have cancel : val l + val m * (l.headD 0 * n0).toNat ≡ val l * (val m * n0.toNat + 1) [MOD 2 ^ w] := by
    rw [BitVec.toNat_mul, headD_eq_mod l hne,
      show val l * (val m * n0.toNat + 1) = val l + val m * (val l * n0.toNat) by ring]
    exact (((Nat.mod_modEq _ _).trans ((Nat.mod_modEq _ _).mul_right _)).mul_left _).add_left _
  have hzero : (0 : BitVec w).toNat = 0 := by simp
  rw [hzero, Nat.add_zero]
  exact (cancel.dvd_iff dvd_rfl).mpr (Dvd.dvd.mul_left (Nat.dvd_of_mod_eq_zero h.inverse) _)

theorem length_montStep {w : Nat} (m : Limbs w) (n0 : BitVec w) (a : Limbs w) (t : MontAcc w) (bi : BitVec w) :
    (montStep m n0 a t bi).lo.length = min (min t.lo.length a.length) m.length - 1 + 1 := by
  simp [montStep, length_macRow]

theorem val_tail {w : Nat} {l : Limbs w} (hne : l ≠ []) (h : 2 ^ w ∣ val l) : val l = 2 ^ w * val l.tail := by
  obtain ⟨x, xs, rfl⟩ := List.exists_cons_of_ne_nil hne
  rw [val_cons, Nat.dvd_add_left (Nat.dvd_mul_right ..)] at h
  rw [val_cons, Nat.eq_zero_of_dvd_of_lt h x.isLt, Nat.zero_add, List.tail_cons]

/-- The carries between the passes, over the natural numbers: with a total below `2 * R * B` the top limb is 0 or 1 and
nothing is lost. `B` is the limb radix, `R = B * P` the radix of the vector; `lo1`, `c1` leave the multiply pass, `lo2`,
`c2` the reduce pass. -/
theorem montStep_carries {B P R T X hi c1 c2 lo1 lo2 low : Nat} (hR : R = B * P) (hbound : T + X < 2 * (R * B))
    (h1 : lo1 + R * (hi + c1) = T) (h2 : lo2 + R * c2 = lo1 + X) (hlow : lo2 = B * low) :
    let tn := (hi + c1) % B
    let top := (hi + c1) / B + (tn + c2) / B
    top ≤ 1 ∧ (low + P * ((tn + c2) % B) + R * top) * B = T + X := by
  intro tn top
  have split1 : tn + B * ((hi + c1) / B) = hi + c1 := Nat.mod_add_div _ _
  have split2 : (tn + c2) % B + B * ((tn + c2) / B) = tn + c2 := Nat.mod_add_div _ _
  have total : (low + P * ((tn + c2) % B) + R * top) * B = T + X := by
    subst hR
    linear_combination hlow.symm + h2 + h1 + B * P * split2 + B * P * split1
  refine ⟨?_, total⟩
  by_contra htop
  have hfirst : R * B * 2 ≤ R * B * top := Nat.mul_le_mul_left _ (by omega)
  have hpart : R * top * B ≤ T + X := total ▸ Nat.mul_le_mul_right B (Nat.le_add_left _ _)
  linarith

/-- The value of an accumulator that was shifted by one limb. -/
theorem value_shifted {w n : Nat} {lo : Limbs w} (hn : lo.length = n) (x : Nat) (hi : BitVec w) :
    MontAcc.value ⟨lo.tail ++ [BitVec.ofNat w x], hi⟩ n =
      val lo.tail + 2 ^ (w * (n - 1)) * (x % 2 ^ w) + 2 ^ (w * n) * hi.toNat := by
  simp [MontAcc.value, val_append, hn]

/-- The top limb after a step, from the sums `x` and `y` of the two passes. -/
theorem toNat_top {w x y : Nat} (hB : 2 ≤ 2 ^ w) (hx : x < 2 * 2 ^ w) (hy : y < 2 * 2 ^ w)
    (htop : x / 2 ^ w + y / 2 ^ w ≤ 1) :
    (BitVec.ofNat w (x >>> w) + BitVec.ofNat w (y >>> w)).toNat = x / 2 ^ w + y / 2 ^ w := by
  have hBB : 2 * 2 ^ w ≤ 2 ^ w * 2 ^ w := Nat.mul_le_mul_right _ hB
  rw [BitVec.toNat_add, toNat_ofNat_shiftRight (hx.trans_le hBB), toNat_ofNat_shiftRight (hy.trans_le hBB)]
  exact Nat.mod_eq_of_lt (by omega)

theorem two_le_two_pow {w : Nat} (hw : 1 ≤ w) : 2 ≤ 2 ^ w := Nat.pow_le_pow_right (n := 2) two_pos hw

/-- One outer step: the accumulator becomes `(T + a * b_i + q * m) / 2^W`, exactly, and stays below `a + m`. -/
theorem montStep_spec {w : Nat} {m a : Limbs w} {n0 : BitVec w} (h : N0Ok m n0) (ha : a.length = m.length)
    {t : MontAcc w} (hlo : t.lo.length = m.length) (ht : t.value m.length < val a + val m) (bi : BitVec w) :
    (montStep m n0 a t bi).value m.length < val a + val m ∧
    ∃ q < 2 ^ w, (montStep m n0 a t bi).value m.length * 2 ^ w =
      t.value m.length + val a * bi.toNat + q * val m := by
  have hB := two_le_two_pow h.width
  have hpos : 1 ≤ m.length := List.length_pos_iff.mpr h.ne_nil
  have hA : val a < 2 ^ (w * m.length) := ha ▸ val_lt a
  have hM := val_lt m
  have hradix : 2 ^ (w * m.length) = 2 ^ w * 2 ^ (w * (m.length - 1)) := by
    rw [← Nat.pow_add, Nat.mul_sub, Nat.mul_one, Nat.add_sub_cancel' (Nat.le_mul_of_pos_right w hpos)]
  have hzero : (0 : BitVec w).toNat = 0 := by simp
  -- the multiply pass
  obtain ⟨mul, hmul⟩ : ∃ mul, mul = macRow bi t.lo a 0 := ⟨_, rfl⟩
  have hmulLen : mul.1.length = m.length := by rw [hmul, length_macRow, hlo, ha, Nat.min_self]
  have hmulVal := val_macRow bi (hlo.trans ha.symm) 0
  rw [← hmul, hlo, hzero, Nat.add_zero] at hmulVal
  -- the reduce pass
  obtain ⟨q, hq⟩ : ∃ q, q = mul.1.headD 0 * n0 := ⟨_, rfl⟩
  obtain ⟨red, hred⟩ : ∃ red, red = macRow q mul.1 m 0 := ⟨_, rfl⟩
  have hredLen : red.1.length = m.length := by rw [hred, length_macRow, hmulLen, Nat.min_self]
  have hredVal := val_macRow q hmulLen 0
  rw [← hred, hmulLen, hzero, Nat.add_zero] at hredVal
  have hlow : val red.1 = 2 ^ w * val red.1.tail := by
    refine val_tail (List.length_pos_iff.mp (hredLen ▸ hpos)) ?_
    rw [hred, hq]
    exact reduce_low_limb h hmulLen
  -- the carries
  have hsum : t.value m.length + val a * bi.toNat + val m * q.toNat < (val a + val m) * 2 ^ w := by
    have hbi : val a * (bi.toNat + 1) ≤ val a * 2 ^ w := Nat.mul_le_mul_left _ bi.isLt
    have hqlt : val m * (q.toNat + 1) ≤ val m * 2 ^ w := Nat.mul_le_mul_left _ q.isLt
    linarith
  have hbound : (val a + val m) * 2 ^ w < 2 * (2 ^ (w * m.length) * 2 ^ w) := by
    rw [← Nat.mul_assoc]
    exact Nat.mul_lt_mul_of_pos_right (by omega) (Nat.two_pow_pos w)
  obtain ⟨htop, htotal⟩ := montStep_carries (T := t.value m.length + val a * bi.toNat) (X := val m * q.toNat)
    (hi := t.hi.toNat) (c1 := mul.2.toNat) hradix (hsum.trans hbound)
    (by rw [MontAcc.value]; linear_combination hmulVal) hredVal hlow
  have hstep : montStep m n0 a t bi =
      ⟨red.1.tail ++ [BitVec.ofNat w ((t.hi.toNat + mul.2.toNat) % 2 ^ w + red.2.toNat)],
      BitVec.ofNat w ((t.hi.toNat + mul.2.toNat) >>> w) +
        BitVec.ofNat w (((t.hi.toNat + mul.2.toNat) % 2 ^ w + red.2.toNat) >>> w)⟩ := by
    simp only [montStep, ← hmul, ← hq, ← hred, BitVec.toNat_ofNat]
  have hthi := t.hi.isLt
  have hmul2 := mul.2.isLt
  have hred2 := red.2.isLt
  have hmod := Nat.mod_lt (t.hi.toNat + mul.2.toNat) (Nat.two_pow_pos w)
  have hvalue : (montStep m n0 a t bi).value m.length * 2 ^ w =
      t.value m.length + val a * bi.toNat + val m * q.toNat := by
    rw [hstep, value_shifted hredLen, toNat_top hB (by omega) (by omega) htop, htotal]
  refine ⟨Nat.lt_of_mul_lt_mul_right (hvalue ▸ hsum), q.toNat, q.isLt, by rw [hvalue, Nat.mul_comm (val m)]⟩

theorem length_montStep_eq {w : Nat} {m a : Limbs w} {n0 : BitVec w} (h : N0Ok m n0) (ha : a.length = m.length)
    {t : MontAcc w} (hlo : t.lo.length = m.length) (bi : BitVec w) : (montStep m n0 a t bi).lo.length = m.length := by
  have hpos := List.length_pos_iff.mpr h.ne_nil
  rw [length_montStep, hlo, ha]
  omega

/-- The outer loop, from any accumulator below `a + m`. -/
theorem montLoop_spec {w : Nat} {m a : Limbs w} {n0 : BitVec w} (h : N0Ok m n0) (ha : a.length = m.length) (b : Limbs w)
    {t : MontAcc w} (hlo : t.lo.length = m.length) (ht : t.value m.length < val a + val m) :
    (montLoop m n0 a b t).lo.length = m.length ∧
    (montLoop m n0 a b t).value m.length < val a + val m ∧
    ∃ q < 2 ^ (w * b.length), (montLoop m n0 a b t).value m.length * 2 ^ (w * b.length) =
      t.value m.length + val a * val b + q * val m := by
  induction b generalizing t with
  | nil => exact ⟨hlo, ht, 0, by simp, by simp [montLoop]⟩
  | cons bi bs ih =>
    obtain ⟨hlt, q, hq, hstep⟩ := montStep_spec h ha hlo ht bi
    obtain ⟨hlen, hfinal, q', hq', hloop⟩ := ih (length_montStep_eq h ha hlo bi) hlt
    refine ⟨hlen, hfinal, q + 2 ^ w * q', ?_, ?_⟩
    · rw [List.length_cons, Nat.mul_succ, Nat.add_comm (w * _) w, Nat.pow_add]
      calc q + 2 ^ w * q' < 2 ^ w * (q' + 1) := by linarith
        _ ≤ 2 ^ w * 2 ^ (w * bs.length) := Nat.mul_le_mul_left _ hq'
    · rw [List.length_cons, Nat.mul_succ, Nat.pow_add, val_cons, montLoop]
      linear_combination 2 ^ w * hloop + hstep

/-- The accumulator before the final subtraction (R154). -/
theorem montLoop_zero_spec {w : Nat} {m a b : Limbs w} {n0 : BitVec w} (h : N0Ok m n0) (ha : a.length = m.length)
    (hb : b.length = m.length) (hab : val a * val b < val m * 2 ^ (w * m.length)) :
    let t := montLoop m n0 a b { lo := List.replicate m.length 0, hi := 0 }
    t.lo.length = m.length ∧ t.value m.length < 2 * val m ∧
    ∃ q, t.value m.length * 2 ^ (w * m.length) = val a * val b + q * val m := by
  have hzero : MontAcc.value { lo := List.replicate m.length (0 : BitVec w), hi := 0 } m.length = 0 := by
    simp only [MontAcc.value, val_replicate_zero]
    simp
  have hodd := h.odd
  obtain ⟨hlen, -, q, hq, hloop⟩ := montLoop_spec h ha b (t := { lo := List.replicate m.length 0, hi := 0 }) (by simp)
    (by rw [hzero]; omega)
  rw [hb, hzero, Nat.zero_add] at hloop
  rw [hb] at hq
  refine ⟨hlen, ?_, q, hloop⟩
  have hqm : q * val m < 2 ^ (w * m.length) * val m := Nat.mul_lt_mul_of_pos_right hq (by omega)
  exact Nat.lt_of_mul_lt_mul_right (a := 2 ^ (w * m.length)) (by rw [hloop]; linarith)

/-! The final subtraction (R153). -/

/-- Below twice the modulus, the masked subtraction gives the value or the value less the modulus, whichever is below
the modulus. -/
theorem final_subtraction {w : Nat} {m : Limbs w} (hw : 1 ≤ w) {t : MontAcc w} (hlo : t.lo.length = m.length)
    (ht : t.value m.length < 2 * val m) :
    let d := subN t.lo m
    let r := selectN (t.hi.getLsbD 0 || !d.2) d.1 t.lo
    r.length = m.length ∧ val r < val m ∧ (t.value m.length = val r ∨ t.value m.length = val r + val m) := by
  intro d r
  have hM := val_lt m
  have hL : val t.lo < 2 ^ (w * m.length) := hlo ▸ val_lt t.lo
  have hdiff : val d.1 + val m = val t.lo + d.2.toNat * 2 ^ (w * m.length) := hlo ▸ val_subN hw hlo
  have hborrow : d.2 = true ↔ val t.lo < val m := subN_borrow_iff hw hlo
  have hlen : d.1.length = t.lo.length := by simp [d, hlo]
  have hhi : t.hi.toNat = 0 ∨ t.hi.toNat = 1 := by
    by_contra hbig
    have : 2 ^ (w * m.length) * 2 ≤ 2 ^ (w * m.length) * t.hi.toNat := Nat.mul_le_mul_left _ (by omega)
    rw [MontAcc.value] at ht
    omega
  have hbit : t.hi.getLsbD 0 = decide (t.hi.toNat = 1) := by
    rcases hhi with h | h <;> simp [BitVec.getLsbD, h]
  rcases hhi with h0 | h1
  · have hvalue : t.value m.length = val t.lo := by rw [MontAcc.value, h0, Nat.mul_zero, Nat.add_zero]
    cases hd : d.2 with
    | true =>
      have hr : r = t.lo := by simp only [r, hbit, h0, hd]; exact selectN_false hlen
      exact ⟨hr ▸ hlo, hr ▸ hborrow.mp hd, .inl (hr ▸ hvalue)⟩
    | false =>
      have hr : r = d.1 := by simp only [r, hbit, h0, hd]; exact selectN_true hlen
      rw [hd, Bool.toNat_false, Nat.zero_mul, Nat.add_zero] at hdiff
      rw [hr]
      exact ⟨hlen.trans hlo, by omega, .inr (by omega)⟩
  · have hvalue : t.value m.length = val t.lo + 2 ^ (w * m.length) := by rw [MontAcc.value, h1, Nat.mul_one]
    have hd : d.2 = true := hborrow.mpr (by omega)
    have hr : r = d.1 := by simp only [r, hbit, h1, hd]; exact selectN_true hlen
    rw [hd, Bool.toNat_true, Nat.one_mul] at hdiff
    rw [hr]
    exact ⟨hlen.trans hlo, by omega, .inr (by omega)⟩

/-- The law of R154. -/
theorem montmul_spec {w : Nat} {m a b : Limbs w} {n0 : BitVec w} (h : N0Ok m n0) (ha : a.length = m.length)
    (hb : b.length = m.length) (hab : val a * val b < val m * 2 ^ (w * m.length)) :
    (montmul m n0 a b).length = m.length ∧ val (montmul m n0 a b) < val m ∧
    val (montmul m n0 a b) * 2 ^ (w * m.length) ≡ val a * val b [MOD val m] := by
  obtain ⟨hlo, hlt, q, hq⟩ := montLoop_zero_spec h ha hb hab
  obtain ⟨hlen, hcanonical, hr⟩ := final_subtraction h.width hlo hlt
  refine ⟨hlen, hcanonical, ?_⟩
  generalize 2 ^ (w * m.length) = R at *
  have hmod : val (montmul m n0 a b) ≡
      (montLoop m n0 a b { lo := List.replicate m.length 0, hi := 0 }).value m.length [MOD val m] := by
    rcases hr with hr | hr
    · rw [hr]; rfl
    · rw [hr]; exact (Nat.add_modEq_right).symm
  calc val (montmul m n0 a b) * R ≡ _ * R [MOD val m] := hmod.mul_right R
    _ = val a * val b + q * val m := hq
    _ ≡ val a * val b [MOD val m] := Nat.add_mul_modulus_modEq_iff.mpr rfl

theorem n0Ok_n0inv {w : Nat} (hw : 1 ≤ w) {m : Limbs w} (hodd : val m % 2 = 1) : N0Ok m (n0inv (m.headD 0)) :=
  ⟨hw, hodd, n0inv_spec hw hodd⟩

end Sys2Proof.Machine
end

section
/-! The statement about the Montgomery multiplier (42_montgomery_multiplier.md R154). -/

namespace Sys2Proof.Machine

/-- Settles O15: each outer step divides the accumulator by `2^W` exactly and keeps it below `a + m`; the final
subtraction brings it below `m`. -/
theorem montgomeryProductLaw : Obligations.MontgomeryProductLaw := by
  intro w m a b hw hodd ha hb hab n0 t r
  have h : N0Ok m n0 := n0Ok_n0inv hw hodd
  obtain ⟨-, hlt, hq⟩ := montLoop_zero_spec h ha hb hab
  obtain ⟨hlen, hcanonical, hmod⟩ := montmul_spec h ha hb hab
  refine ⟨hcanonical, hlen, hmod, hq, hlt, ?_⟩
  by_contra hbig
  have hM := val_lt m
  have : 2 ^ (w * m.length) * 2 ≤ 2 ^ (w * m.length) * t.hi.toNat := Nat.mul_le_mul_left _ (by omega)
  have hvalue : val t.lo + 2 ^ (w * m.length) * t.hi.toNat < 2 * val m := hlt
  omega

end Sys2Proof.Machine
end

section
/-! SUPPORT. Addition and subtraction modulo `m`, modular doublings, and the context of an odd modulus
(42_montgomery_multiplier.md R155; 45_ec_point_adder.md R202). -/

namespace Sys2Proof.Machine

/-! Modular addition and subtraction. -/

theorem length_montmul_le {w : Nat} (m : Limbs w) (n0 : BitVec w) (a : Limbs w) (b : Limbs w) {t : MontAcc w}
    (ha : m.length ≤ a.length) (ht : m.length ≤ t.lo.length) : m.length ≤ (montLoop m n0 a b t).lo.length := by
  induction b generalizing t with
  | nil => exact ht
  | cons bi bs ih =>
    refine ih ?_
    rw [length_montStep]
    omega

/-- The product has the modulus' length, whatever its operands' values. -/
theorem length_montmul {w : Nat} {m a : Limbs w} (n0 : BitVec w) (b : Limbs w) (ha : m.length ≤ a.length) :
    (montmul m n0 a b).length = m.length := by
  have hlo := length_montmul_le m n0 a b (t := { lo := List.replicate m.length 0, hi := 0 }) ha (by simp)
  simp only [montmul, length_selectN, length_subN]
  omega

/-- The sum less the modulus where it does not stay below it: the steps of FADD and of a modular doubling. -/
theorem val_addReduce {w : Nat} (hw : 1 ≤ w) {m x y : Limbs w} (hx : x.length = m.length) (hy : y.length = m.length)
    (hxm : val x < val m) (hym : val y < val m) :
    let s := addN x y
    let d := subN s.1 m
    val (selectN (s.2 || !d.2) d.1 s.1) = (val x + val y) % val m := by
  intro s d
  have hM := val_lt m
  have hsLen : s.1.length = m.length := by simp [s, hx, hy]
  have hdLen : d.1.length = s.1.length := by simp [d, hsLen]
  have hS : val s.1 < 2 ^ (w * m.length) := hsLen ▸ val_lt s.1
  have hsum : val s.1 + s.2.toNat * 2 ^ (w * m.length) = val x + val y := hx ▸ val_addN hw (hx.trans hy.symm)
  have hdiff : val d.1 + val m = val s.1 + d.2.toNat * 2 ^ (w * m.length) := hsLen ▸ val_subN hw hsLen
  have hborrow : d.2 = true ↔ val s.1 < val m := subN_borrow_iff hw hsLen
  cases hc : s.2 with
  | true =>
    rw [hc, Bool.toNat_true, Nat.one_mul] at hsum
    have hd : d.2 = true := hborrow.mpr (by omega)
    rw [hd, Bool.toNat_true, Nat.one_mul] at hdiff
    rw [Bool.true_or, selectN_true hdLen, Nat.mod_eq_sub_mod (by omega), Nat.mod_eq_of_lt (by omega)]
    omega
  | false =>
    rw [hc, Bool.toNat_false, Nat.zero_mul, Nat.add_zero] at hsum
    cases hd : d.2 with
    | true =>
      have hlt := hborrow.mp hd
      rw [Bool.not_true, Bool.or_false, selectN_false hdLen, Nat.mod_eq_of_lt (by omega), hsum]
    | false =>
      have hge : ¬ val s.1 < val m := fun h => by simp [hborrow.mpr h] at hd
      rw [hd, Bool.toNat_false, Nat.zero_mul, Nat.add_zero] at hdiff
      rw [Bool.not_false, Bool.or_true, selectN_true hdLen, Nat.mod_eq_sub_mod (by omega), Nat.mod_eq_of_lt (by omega)]
      omega

theorem val_faddT {w : Nat} (hw : 1 ≤ w) {k : Ctx w} {x y : Limbs w} (hx : x.length = k.m.length)
    (hy : y.length = k.m.length) (hxm : val x < val k.m) (hym : val y < val k.m) :
    val (faddT k x y).val = (val x + val y) % val k.m := val_addReduce hw hx hy hxm hym

theorem val_fsubT {w : Nat} (hw : 1 ≤ w) {k : Ctx w} {x y : Limbs w} (hx : x.length = k.m.length)
    (hy : y.length = k.m.length) (hxm : val x < val k.m) (hym : val y < val k.m) :
    val (fsubT k x y).val = (val x + val k.m - val y) % val k.m := by
  have hdiff := val_subN hw (hx.trans hy.symm)
  have hborrow := subN_borrow_iff hw (hx.trans hy.symm)
  have hdLen : (subN x y).1.length = k.m.length := by simp [hx, hy]
  have hsum := val_addN hw hdLen
  have hsLen : (addN (subN x y).1 k.m).1.length = (subN x y).1.length := by simp [hdLen]
  have hM := val_lt k.m
  have hD : val (subN x y).1 < 2 ^ (w * k.m.length) := hdLen ▸ val_lt (subN x y).1
  have hS : val (addN (subN x y).1 k.m).1 < 2 ^ (w * k.m.length) := (hsLen.trans hdLen) ▸ val_lt _
  simp only [fsubT, bind_val, subT_val, addT_val, selectT_val]
  rw [hx] at hdiff
  rw [hdLen] at hsum
  cases hk : (subN x y).2 with
  | true =>
    have hlt := hborrow.mp hk
    rw [hk, Bool.toNat_true, Nat.one_mul] at hdiff
    rw [selectN_true hsLen, Nat.mod_eq_of_lt (by omega)]
    cases hc : (addN (subN x y).1 k.m).2 with
    | true => rw [hc, Bool.toNat_true, Nat.one_mul] at hsum; omega
    | false => rw [hc, Bool.toNat_false, Nat.zero_mul, Nat.add_zero] at hsum; omega
  | false =>
    have hge : ¬ val x < val y := fun h => by simp [hborrow.mpr h] at hk
    rw [hk, Bool.toNat_false, Nat.zero_mul, Nat.add_zero] at hdiff
    rw [selectN_false hsLen, Nat.mod_eq_sub_mod (by omega), Nat.mod_eq_of_lt (by omega)]
    omega

theorem length_faddT {w : Nat} {k : Ctx w} {x y : Limbs w} (hx : x.length = k.m.length) (hy : y.length = k.m.length) :
    (faddT k x y).val.length = k.m.length := by
  simp [faddT, hx, hy]

theorem length_fsubT {w : Nat} {k : Ctx w} {x y : Limbs w} (hx : x.length = k.m.length) (hy : y.length = k.m.length) :
    (fsubT k x y).val.length = k.m.length := by
  simp [fsubT, hx, hy]

theorem faddT_trace {w : Nat} {k : Ctx w} {x y : Limbs w} (hx : x.length = k.m.length) (hy : y.length = k.m.length) :
    (faddT k x y).trace = faTrace k.m.length := by
  simp [faddT, faTrace, hx, hy]

theorem fsubT_trace {w : Nat} {k : Ctx w} {x y : Limbs w} (hx : x.length = k.m.length) (hy : y.length = k.m.length) :
    (fsubT k x y).trace = fsTrace k.m.length := by
  simp [fsubT, fsTrace, hx, hy]

/-! The context of an odd modulus (R155). -/

theorem length_mdbl {w : Nat} {m x : Limbs w} (hx : x.length = m.length) : (mdbl m x).length = m.length := by
  simp [mdbl, hx]

theorem doublings_trace {w : Nat} (m : Limbs w) (count : Nat) (x : Limbs w) :
    (doublings m count x).trace = List.replicate count (.mdbl m.length) := by
  induction count generalizing x with
  | zero => rfl
  | succ n ih => simp [doublings, ih, List.replicate_succ]

theorem doublings_val {w : Nat} (hw : 1 ≤ w) {m : Limbs w} (count : Nat) {x : Limbs w} (hx : x.length = m.length)
    (hxm : val x < val m) :
    (doublings m count x).val.length = m.length ∧ val (doublings m count x).val = 2 ^ count * val x % val m := by
  induction count generalizing x with
  | zero => exact ⟨hx, by simp [doublings, Nat.mod_eq_of_lt hxm]⟩
  | succ n ih =>
    have hval : val (mdbl m x) = (val x + val x) % val m := val_addReduce hw hx hx hxm hxm
    obtain ⟨hlen, hrest⟩ := ih (length_mdbl hx) (by rw [hval]; exact Nat.mod_lt _ (by omega))
    refine ⟨hlen, hrest.trans ?_⟩
    rw [hval, Nat.mul_mod_mod]
    congr 1
    ring

/-- What MKCTX computes for an odd modulus. -/
theorem mkctx_spec {w : Nat} (hw : 1 ≤ w) {m : Limbs w} (hodd : val m % 2 = 1) :
    ((mkctx m).val.m = m ∧ (mkctx m).val.n0 = n0inv (m.headD 0)) ∧
    ((mkctx m).val.one.length = m.length ∧ val (mkctx m).val.one = 2 ^ (w * m.length) % val m) ∧
    ((mkctx m).val.rr.length = m.length ∧ val (mkctx m).val.rr = (2 ^ (w * m.length)) ^ 2 % val m) := by
  have hpos : 1 ≤ m.length := List.length_pos_iff.mpr (n0Ok_n0inv hw hodd).ne_nil
  have hone : val (limbsOf w m.length 1) = 1 := by
    rw [val_limbsOf, Nat.mod_eq_of_lt (Nat.one_lt_two_pow (Nat.mul_ne_zero (by omega) (by omega)))]
  have hl : (limbsOf w m.length 1).length = m.length := length_limbsOf ..
  obtain ⟨x, hx⟩ : ∃ x, x = selectN (!(subN (limbsOf w m.length 1) m).2) (subN (limbsOf w m.length 1) m).1
    (limbsOf w m.length 1) := ⟨_, rfl⟩
  have hxLen : x.length = m.length := by simp [hx]
  have hxVal : val x = 1 % val m := by
    have hdiff := val_subN hw hl
    have hborrow := subN_borrow_iff hw hl
    have hdLen : (subN (limbsOf w m.length 1) m).1.length = (limbsOf w m.length 1).length := by simp
    rw [hone] at hdiff hborrow
    cases hd : (subN (limbsOf w m.length 1) m).2 with
    | true => rw [hx, hd, Bool.not_true, selectN_false hdLen, hone, Nat.mod_eq_of_lt (hborrow.mp hd)]
    | false =>
      have hm : val m = 1 := by
        have : ¬ 1 < val m := fun h => by simp [hborrow.mpr h] at hd
        omega
      rw [hd, hm, Bool.toNat_false] at hdiff
      rw [hx, hd, Bool.not_false, selectN_true hdLen, hm]
      omega
  have hxm : val x < val m := hxVal ▸ Nat.mod_lt _ (by omega)
  obtain ⟨honeLen, honeVal⟩ := doublings_val hw (w * m.length) hxLen hxm
  have honeVal' : val (doublings m (w * m.length) x).val = 2 ^ (w * m.length) % val m := by
    rw [honeVal, hxVal, Nat.mul_mod_mod, Nat.mul_one]
  obtain ⟨hrrLen, hrrVal⟩ := doublings_val hw (w * m.length) honeLen (honeVal ▸ Nat.mod_lt _ (by omega))
  rw [honeVal', Nat.mul_mod_mod, ← Nat.pow_two] at hrrVal
  subst hx
  exact ⟨⟨rfl, rfl⟩, ⟨honeLen, honeVal'⟩, hrrLen, hrrVal⟩

theorem mkctx_trace {w : Nat} (m : Limbs w) :
    (mkctx m).trace =
      [.n0 1, .lsub m.length, .lsel m.length] ++ List.replicate (2 * w * m.length) (.mdbl m.length) := by
  have htwice : 2 * w * m.length = w * m.length + w * m.length := by ring
  simp [mkctx, doublings_trace, htwice]

end Sys2Proof.Machine
end

section
/-! The statement about field addition and subtraction (45_ec_point_adder.md R202). -/

namespace Sys2Proof.Machine

/-- Settles O20: each is a sum or difference corrected once, by the borrow of the other. -/
theorem fieldAddSubLaw : Obligations.FieldAddSubLaw := fun _ _ _ _ hw hx hy hxm hym =>
  ⟨val_faddT hw hx hy hxm hym, length_faddT hx hy, val_fsubT hw hx hy hxm hym, length_fsubT hx hy, faddT_trace hx hy,
    fsubT_trace hx hy⟩

end Sys2Proof.Machine
end

section
/-! SUPPORT. Montgomery forms as elements of the integers modulo `m` (42_montgomery_multiplier.md R151, R154, R156):
each unit operation computes the ring's. -/

namespace Sys2Proof.Machine

/-- `R` in the integers modulo `m`. -/
def radixOf {w : Nat} (m : Limbs w) : ZMod (val m) := ((2 ^ (w * m.length) : Nat) : ZMod (val m))

/-- `a` is the Montgomery form of `x`: canonical, and `x * R` modulo `m`. -/
structure IsMont {w : Nat} (m a : Limbs w) (x : ZMod (val m)) : Prop where
  length_eq : a.length = m.length
  lt : val a < val m
  cast_eq : (val a : ZMod (val m)) = x * radixOf m

theorem isUnit_radixOf {w : Nat} {m : Limbs w} (hodd : val m % 2 = 1) : IsUnit (radixOf m) := by
  rw [radixOf, ZMod.isUnit_iff_coprime]
  exact Nat.Coprime.pow_left _ (Nat.coprime_two_left.mpr (Nat.odd_iff.mpr hodd))

/-- The value of a Montgomery form of a number. -/
theorem val_eq_iff {w : Nat} {m a : Limbs w} (hlt : val a < val m) (x : Nat) :
    (val a : ZMod (val m)) = x * radixOf m ↔ val a = x * 2 ^ (w * m.length) % val m := by
  rw [radixOf, ← Nat.cast_mul, ZMod.natCast_eq_natCast_iff', Nat.mod_eq_of_lt hlt]

theorem isMont_natCast_iff {w : Nat} {m a : Limbs w} (hm : 0 < val m) (hl : a.length = m.length) (x : Nat) :
    IsMont m a x ↔ val a = x * 2 ^ (w * m.length) % val m := by
  constructor
  · exact fun h => (val_eq_iff h.lt x).mp h.cast_eq
  · intro h
    have hlt : val a < val m := h ▸ Nat.mod_lt _ hm
    exact ⟨hl, hlt, (val_eq_iff hlt x).mpr h⟩

theorem IsMont.val_eq {w : Nat} {m a : Limbs w} {x : Nat} (h : IsMont m a x) :
    val a = x * 2 ^ (w * m.length) % val m := (val_eq_iff h.lt x).mp h.cast_eq

theorem IsMont.eq_limbsOf {w : Nat} {m a : Limbs w} {x : Nat} (h : IsMont m a x) :
    a = limbsOf w m.length (x * 2 ^ (w * m.length) % val m) := by
  rw [← h.val_eq, ← h.length_eq, limbsOf_val]

theorem isMont_limbsOf {w : Nat} {m : Limbs w} (hm : 0 < val m) (x : Nat) :
    IsMont m (limbsOf w m.length (x * 2 ^ (w * m.length) % val m)) x := by
  refine (isMont_natCast_iff hm (length_limbsOf ..) x).mpr ?_
  rw [val_limbsOf, Nat.mod_eq_of_lt ((Nat.mod_lt _ hm).trans (val_lt m))]

/-- Every canonical value is the Montgomery form of something. -/
theorem exists_isMont {w : Nat} {m a : Limbs w} (hodd : val m % 2 = 1) (hl : a.length = m.length)
    (hlt : val a < val m) : ∃ x, IsMont m a x := by
  obtain ⟨u, hu⟩ := isUnit_radixOf hodd
  exact ⟨val a * ↑u⁻¹, hl, hlt, by rw [← hu, Units.inv_mul_cancel_right]⟩

theorem IsMont.eq_zero_iff {w : Nat} {m a : Limbs w} {x : ZMod (val m)} (hodd : val m % 2 = 1) (h : IsMont m a x) :
    x = 0 ↔ val a = 0 := by
  rw [← (isUnit_radixOf hodd).mul_left_eq_zero (a := x), ← h.cast_eq, ZMod.natCast_eq_zero_iff]
  exact ⟨fun hd => Nat.eq_zero_of_dvd_of_lt hd h.lt, fun h0 => h0 ▸ dvd_zero _⟩

/-- Montgomery forms of equal elements are equal, and of different ones different. -/
theorem IsMont.val_inj {w : Nat} {m a b : Limbs w} {x y : ZMod (val m)} (hodd : val m % 2 = 1) (ha : IsMont m a x)
    (hb : IsMont m b y) : val a = val b ↔ x = y := by
  constructor
  · intro h
    refine (isUnit_radixOf hodd).mul_right_cancel ?_
    rw [← ha.cast_eq, ← hb.cast_eq, h]
  · rintro rfl
    have h := ha.cast_eq.trans hb.cast_eq.symm
    rwa [ZMod.natCast_eq_natCast_iff', Nat.mod_eq_of_lt ha.lt, Nat.mod_eq_of_lt hb.lt] at h

/-! The unit operations. -/

section
variable {w : Nat} {k : Ctx w}

/-- A context whose multiplier works (R151). -/
abbrev CtxOk (k : Ctx w) : Prop := N0Ok k.m k.n0

theorem CtxOk.pos (h : CtxOk k) : 0 < val k.m := by
  have := h.odd
  omega

theorem mmT_val_spec (h : CtxOk k) {a b : Limbs w} (ha : a.length = k.m.length) (hb : b.length = k.m.length)
    (hab : val a * val b < val k.m * 2 ^ (w * k.m.length)) :
    (mmT k a b).val.length = k.m.length ∧ val (mmT k a b).val < val k.m ∧
    (val (mmT k a b).val : ZMod (val k.m)) * radixOf k.m = val a * val b := by
  obtain ⟨hlen, hlt, hmod⟩ := montmul_spec h ha hb hab
  refine ⟨hlen, hlt, ?_⟩
  rw [radixOf, ← Nat.cast_mul, ← Nat.cast_mul, ZMod.natCast_eq_natCast_iff]
  exact hmod

theorem isMont_mmT (h : CtxOk k) {a b : Limbs w} {x y : ZMod (val k.m)} (ha : IsMont k.m a x) (hb : IsMont k.m b y) :
    IsMont k.m (mmT k a b).val (x * y) := by
  obtain ⟨hlen, hlt, hmul⟩ := mmT_val_spec h ha.length_eq hb.length_eq
    (Nat.mul_lt_mul'' ha.lt (hb.lt.trans (val_lt k.m)))
  refine ⟨hlen, hlt, (isUnit_radixOf h.odd).mul_right_cancel ?_⟩
  rw [hmul, ha.cast_eq, hb.cast_eq]
  ring

theorem isMont_faddT (h : CtxOk k) {a b : Limbs w} {x y : ZMod (val k.m)} (ha : IsMont k.m a x) (hb : IsMont k.m b y) :
    IsMont k.m (faddT k a b).val (x + y) := by
  have hval := val_faddT h.width ha.length_eq hb.length_eq ha.lt hb.lt
  refine ⟨length_faddT ha.length_eq hb.length_eq, hval ▸ Nat.mod_lt _ h.pos, ?_⟩
  rw [hval, ZMod.natCast_mod, Nat.cast_add, ha.cast_eq, hb.cast_eq, add_mul]

theorem isMont_fsubT (h : CtxOk k) {a b : Limbs w} {x y : ZMod (val k.m)} (ha : IsMont k.m a x) (hb : IsMont k.m b y) :
    IsMont k.m (fsubT k a b).val (x - y) := by
  have hval := val_fsubT h.width ha.length_eq hb.length_eq ha.lt hb.lt
  refine ⟨length_fsubT ha.length_eq hb.length_eq, hval ▸ Nat.mod_lt _ h.pos, ?_⟩
  rw [hval, ZMod.natCast_mod, Nat.cast_sub (by have := hb.lt; omega), Nat.cast_add, ZMod.natCast_self, add_zero,
    ha.cast_eq, hb.cast_eq, sub_mul]

/-- TOMONT gives the Montgomery form of any value of the modulus' length (R156). -/
theorem isMont_tomontT (h : CtxOk k) (hrr : k.rr.length = k.m.length)
    (hrrVal : val k.rr = (2 ^ (w * k.m.length)) ^ 2 % val k.m) {a : Limbs w} (ha : a.length = k.m.length) :
    IsMont k.m (tomontT k a).val (val a) := by
  have hrrLt : val k.rr < val k.m := hrrVal ▸ Nat.mod_lt _ h.pos
  obtain ⟨hlen, hlt, hmul⟩ := mmT_val_spec h ha hrr
    (by rw [Nat.mul_comm (val k.m)]; exact Nat.mul_lt_mul'' (ha ▸ val_lt a) hrrLt)
  refine ⟨hlen, hlt, (isUnit_radixOf h.odd).mul_right_cancel ?_⟩
  rw [tomontT, hmul, hrrVal, ZMod.natCast_mod, Nat.cast_pow, ← radixOf]
  ring

/-- FROMMONT gives the value a Montgomery form stands for (R156). -/
theorem frommontT_spec (h : CtxOk k) {a : Limbs w} {x : ZMod (val k.m)} (ha : IsMont k.m a x) :
    (frommontT k a).val.length = k.m.length ∧ val (frommontT k a).val < val k.m ∧
    (val (frommontT k a).val : ZMod (val k.m)) = x := by
  have hpos : 1 ≤ k.m.length := List.length_pos_iff.mpr h.ne_nil
  have hone : val (limbsOf w k.m.length 1) = 1 := by
    have hw := h.width
    rw [val_limbsOf, Nat.mod_eq_of_lt (Nat.one_lt_two_pow (Nat.mul_ne_zero (by omega) (by omega)))]
  obtain ⟨hlen, hlt, hmul⟩ := mmT_val_spec h ha.length_eq (b := limbsOf w k.m.length 1) (length_limbsOf ..)
    (Nat.mul_lt_mul'' ha.lt (val_limbsOf w _ 1 ▸ Nat.mod_lt _ (Nat.two_pow_pos _)))
  refine ⟨hlen, hlt, (isUnit_radixOf h.odd).mul_right_cancel ?_⟩
  rw [frommontT, hmul, hone, ha.cast_eq, Nat.cast_one, mul_one]

end

end Sys2Proof.Machine
end

section
/-! SUPPORT. Two traced computations side by side, and the sequence of R203 over any operations: over limb vectors it is
PADD, over a ring the formulas of R204, over nothing at all the list of its unit operations. -/

namespace Sys2Proof.Machine

/-- Two computations with one trace whose values are related. -/
structure Traced.Rel {α β : Type} (r : α → β → Prop) (x : Traced α) (y : Traced β) : Prop where
  trace_eq : x.trace = y.trace
  val_rel : r x.val y.val

theorem Traced.Rel.bind {α β γ δ : Type} {r : α → β → Prop} {q : γ → δ → Prop} {x : Traced α} {y : Traced β}
    {f : α → Traced γ} {g : β → Traced δ} (h : x.Rel r y) (hfg : ∀ a b, r a b → (f a).Rel q (g b)) :
    (x.bind f).Rel q (y.bind g) := by
  obtain ⟨htrace, hval⟩ := hfg _ _ h.val_rel
  exact ⟨by rw [bind_trace, bind_trace, h.trace_eq, htrace], hval⟩

theorem Traced.Rel.pure {α β : Type} {r : α → β → Prop} {a : α} {b : β} (h : r a b) :
    (Traced.pure a).Rel r (Traced.pure b) := ⟨rfl, h⟩

/-- The three unit operations of the point adder over any kind of field element (45_ec_point_adder.md R202, R203). -/
structure FieldOps (F : Type) where
  mm : F → F → Traced F
  add : F → F → Traced F
  sub : F → F → Traced F

/-- The operations of two kinds keep a relation between their elements, and have one trace. -/
structure FieldOps.Related {F G : Type} (r : F → G → Prop) (o : FieldOps F) (o' : FieldOps G) : Prop where
  mm : ∀ {a b a' b'}, r a a' → r b b' → (o.mm a b).Rel r (o'.mm a' b')
  add : ∀ {a b a' b'}, r a a' → r b b' → (o.add a b).Rel r (o'.add a' b')
  sub : ∀ {a b a' b'}, r a a' → r b b' → (o.sub a b).Rel r (o'.sub a' b')

/-- The sequence of R203, name for name. -/
def paddSeq {F P : Type} (o : FieldOps F) (mk : F → F → F → P) (a b3 px py pz qx qy qz : F) : Traced P :=
  (o.mm px qx).bind fun t0 =>
  (o.mm py qy).bind fun t1 =>
  (o.mm pz qz).bind fun t2 =>
  (o.add px py).bind fun u0 =>
  (o.add qx qy).bind fun u1 =>
  (o.mm u0 u1).bind fun t3a =>
  (o.sub t3a t0).bind fun t3b =>
  (o.sub t3b t1).bind fun t3 =>
  (o.add px pz).bind fun u2 =>
  (o.add qx qz).bind fun u3 =>
  (o.mm u2 u3).bind fun t4a =>
  (o.sub t4a t0).bind fun t4b =>
  (o.sub t4b t2).bind fun t4 =>
  (o.add py pz).bind fun u4 =>
  (o.add qy qz).bind fun u5 =>
  (o.mm u4 u5).bind fun t5a =>
  (o.sub t5a t1).bind fun t5b =>
  (o.sub t5b t2).bind fun t5 =>
  (o.mm a t4).bind fun z3a =>
  (o.mm b3 t2).bind fun x3a =>
  (o.add x3a z3a).bind fun z3b =>
  (o.sub t1 z3b).bind fun x3b =>
  (o.add t1 z3b).bind fun z3c =>
  (o.mm x3b z3c).bind fun y3a =>
  (o.add t0 t0).bind fun t1a =>
  (o.add t1a t0).bind fun t1b =>
  (o.mm a t2).bind fun t2a =>
  (o.mm b3 t4).bind fun t4c =>
  (o.add t1b t2a).bind fun t1c =>
  (o.sub t0 t2a).bind fun t2b =>
  (o.mm a t2b).bind fun t2c =>
  (o.add t4c t2c).bind fun t4d =>
  (o.mm t1c t4d).bind fun t0a =>
  (o.add y3a t0a).bind fun y3 =>
  (o.mm t5 t4d).bind fun t0b =>
  (o.mm t3 x3b).bind fun x3c =>
  (o.sub x3c t0b).bind fun x3 =>
  (o.mm t3 t1c).bind fun t0c =>
  (o.mm t5 z3c).bind fun z3d =>
  (o.add z3d t0c).bind fun z3 =>
  .pure (mk x3 y3 z3)

/-- Over related operations the sequence gives related results, with one trace: one step after the other. -/
theorem FieldOps.Related.paddSeq {F G P Q : Type} {r : F → G → Prop} {o : FieldOps F} {o' : FieldOps G}
    (h : o.Related r o') {q : P → Q → Prop} {mk : F → F → F → P} {mk' : G → G → G → Q}
    (hmk : ∀ {x y z x' y' z'}, r x x' → r y y' → r z z' → q (mk x y z) (mk' x' y' z')) {a b3 px py pz qx qy qz : F}
    {a' b3' px' py' pz' qx' qy' qz' : G} (ha : r a a') (hb3 : r b3 b3') (hpx : r px px') (hpy : r py py')
    (hpz : r pz pz') (hqx : r qx qx') (hqy : r qy qy') (hqz : r qz qz') :
    (paddSeq o mk a b3 px py pz qx qy qz).Rel q (paddSeq o' mk' a' b3' px' py' pz' qx' qy' qz') := by
  refine (h.mm hpx hqx).bind fun _ _ t0 => ?_
  refine (h.mm hpy hqy).bind fun _ _ t1 => ?_
  refine (h.mm hpz hqz).bind fun _ _ t2 => ?_
  refine (h.add hpx hpy).bind fun _ _ u0 => (h.add hqx hqy).bind fun _ _ u1 => ?_
  refine (h.mm u0 u1).bind fun _ _ t3a => (h.sub t3a t0).bind fun _ _ t3b => (h.sub t3b t1).bind fun _ _ t3 => ?_
  refine (h.add hpx hpz).bind fun _ _ u2 => (h.add hqx hqz).bind fun _ _ u3 => ?_
  refine (h.mm u2 u3).bind fun _ _ t4a => (h.sub t4a t0).bind fun _ _ t4b => (h.sub t4b t2).bind fun _ _ t4 => ?_
  refine (h.add hpy hpz).bind fun _ _ u4 => (h.add hqy hqz).bind fun _ _ u5 => ?_
  refine (h.mm u4 u5).bind fun _ _ t5a => (h.sub t5a t1).bind fun _ _ t5b => (h.sub t5b t2).bind fun _ _ t5 => ?_
  refine (h.mm ha t4).bind fun _ _ z3a => (h.mm hb3 t2).bind fun _ _ x3a => ?_
  refine (h.add x3a z3a).bind fun _ _ z3b => (h.sub t1 z3b).bind fun _ _ x3b => ?_
  refine (h.add t1 z3b).bind fun _ _ z3c => (h.mm x3b z3c).bind fun _ _ y3a => ?_
  refine (h.add t0 t0).bind fun _ _ t1a => (h.add t1a t0).bind fun _ _ t1b => ?_
  refine (h.mm ha t2).bind fun _ _ t2a => (h.mm hb3 t4).bind fun _ _ t4c => ?_
  refine (h.add t1b t2a).bind fun _ _ t1c => (h.sub t0 t2a).bind fun _ _ t2b => ?_
  refine (h.mm ha t2b).bind fun _ _ t2c => (h.add t4c t2c).bind fun _ _ t4d => ?_
  refine (h.mm t1c t4d).bind fun _ _ t0a => (h.add y3a t0a).bind fun _ _ y3 => ?_
  refine (h.mm t5 t4d).bind fun _ _ t0b => (h.mm t3 x3b).bind fun _ _ x3c => (h.sub x3c t0b).bind fun _ _ x3 => ?_
  refine (h.mm t3 t1c).bind fun _ _ t0c => (h.mm t5 z3c).bind fun _ _ z3d => (h.add z3d t0c).bind fun _ _ z3 => ?_
  exact .pure (hmk x3 y3 z3)

/-- The operations on limb vectors. -/
def limbOps {w : Nat} (k : Ctx w) : FieldOps (Limbs w) := ⟨mmT k, faddT k, fsubT k⟩

/-- A ring's operations, with the events of vectors of `n` limbs. -/
def ringOps (F : Type) [Add F] [Sub F] [Mul F] (n : Nat) : FieldOps F :=
  ⟨fun x y => ⟨x * y, [.mmul n]⟩, fun x y => ⟨x + y, faTrace n⟩, fun x y => ⟨x - y, fsTrace n⟩⟩

theorem paddT_eq_paddSeq {w : Nat} (k : Ctx w) (p q : Point w) :
    paddT k p q = paddSeq (limbOps k) Point.mk k.a k.b3 p.x p.y p.z q.x q.y q.z := rfl

/-- Over a ring the sequence gives the formulas of R204. -/
theorem paddSeq_ringOps_val {F : Type} [CommRing F] (n : Nat) (a b3 : F) (p q : F × F × F) :
    (paddSeq (ringOps F n) (fun x y z => (x, y, z)) a b3 p.1 p.2.1 p.2.2 q.1 q.2.1 q.2.2).val =
      addFormula a b3 p q := by
  obtain ⟨x1, y1, z1⟩ := p
  obtain ⟨x2, y2, z2⟩ := q
  simp only [paddSeq, Traced.bind, Traced.pure, ringOps, addFormula, Prod.mk.injEq]
  refine ⟨?_, ?_, ?_⟩ <;> ring

/-- Its events do not depend on the elements (70_reset_and_hazards.md R288). -/
theorem paddSeq_ringOps_trace {F : Type} [CommRing F] (n : Nat) (a b3 : F) (p q : F × F × F) :
    (paddSeq (ringOps F n) (fun x y z => (x, y, z)) a b3 p.1 p.2.1 p.2.2 q.1 q.2.1 q.2.2).trace = paddUnitTrace n := by
  simp only [paddSeq, Traced.bind, Traced.pure, ringOps, faTrace, fsTrace, paddUnitTrace, List.flatten_cons,
    List.flatten_nil, List.cons_append, List.nil_append]

/-- `p` holds the Montgomery forms of the coordinates `c`. -/
structure IsMontPoint {w : Nat} (m : Limbs w) (p : Point w) (c : ZMod (val m) × ZMod (val m) × ZMod (val m)) :
    Prop where
  x : IsMont m p.x c.1
  y : IsMont m p.y c.2.1
  z : IsMont m p.z c.2.2

/-- Montgomery forms are added and multiplied as the elements they stand for (R151, R202). -/
theorem related_isMont {w : Nat} {k : Ctx w} (h : CtxOk k) :
    (limbOps k).Related (IsMont k.m) (ringOps (ZMod (val k.m)) k.m.length) where
  mm ha hb := ⟨rfl, isMont_mmT h ha hb⟩
  add ha hb := ⟨faddT_trace ha.length_eq hb.length_eq, isMont_faddT h ha hb⟩
  sub ha hb := ⟨fsubT_trace ha.length_eq hb.length_eq, isMont_fsubT h ha hb⟩

/-- Vectors of the modulus' length stay so. -/
theorem related_length {w : Nat} (k : Ctx w) :
    (limbOps k).Related (fun a (_ : Unit) => a.length = k.m.length) (ringOps Unit k.m.length) where
  mm ha _ := ⟨rfl, length_montmul _ _ ha.ge⟩
  add ha hb := ⟨faddT_trace ha hb, length_faddT ha hb⟩
  sub ha hb := ⟨fsubT_trace ha hb, length_fsubT ha hb⟩

/-- PADD adds by the formulas of R204. -/
theorem isMontPoint_paddT {w : Nat} {k : Ctx w} (h : CtxOk k) {a b3 : ZMod (val k.m)} (ha : IsMont k.m k.a a)
    (hb3 : IsMont k.m k.b3 b3) {p q : Point w} {c d : ZMod (val k.m) × ZMod (val k.m) × ZMod (val k.m)}
    (hp : IsMontPoint k.m p c) (hq : IsMontPoint k.m q d) :
    IsMontPoint k.m (paddT k p q).val (addFormula a b3 c d) := by
  rw [paddT_eq_paddSeq, ← paddSeq_ringOps_val k.m.length]
  exact ((related_isMont h).paddSeq (q := IsMontPoint k.m) (fun hx hy hz => ⟨hx, hy, hz⟩) ha hb3 hp.x hp.y hp.z hq.x
    hq.y hq.z).val_rel

/-- The coordinates of a point have `n` limbs. -/
structure Point.HasLength {w : Nat} (n : Nat) (p : Point w) : Prop where
  x : p.x.length = n
  y : p.y.length = n
  z : p.z.length = n

theorem IsMontPoint.hasLength {w : Nat} {m : Limbs w} {p : Point w} {c : ZMod (val m) × ZMod (val m) × ZMod (val m)}
    (h : IsMontPoint m p c) : p.HasLength m.length := ⟨h.x.length_eq, h.y.length_eq, h.z.length_eq⟩

/-- What PADD does whatever the values: its events, and the lengths of its result (R203). -/
theorem paddT_rel_length {w : Nat} {k : Ctx w} (ha : k.a.length = k.m.length) (hb3 : k.b3.length = k.m.length)
    {p q : Point w} (hp : p.HasLength k.m.length) (hq : q.HasLength k.m.length) :
    (paddT k p q).trace = paddUnitTrace k.m.length ∧ (paddT k p q).val.HasLength k.m.length := by
  have h := (related_length k).paddSeq (q := fun p (_ : Unit × Unit × Unit) => Point.HasLength k.m.length p)
    (mk := Point.mk) (mk' := fun x y z => (x, y, z)) (fun hx hy hz => ⟨hx, hy, hz⟩) (a' := ()) (b3' := ()) (px' := ())
    (py' := ()) (pz' := ()) (qx' := ()) (qy' := ()) (qz' := ()) ha hb3 hp.x hp.y hp.z hq.x hq.y hq.z
  exact ⟨h.trace_eq.trans (paddSeq_ringOps_trace k.m.length () () ((), (), ()) ((), (), ())), h.val_rel⟩

end Sys2Proof.Machine
end

section
/-! The statements: PADD computes the complete addition formulas by one sequence of unit operations
(45_ec_point_adder.md R203, R204). -/

namespace Sys2Proof.Machine

/-- Settles O21: coordinates are Montgomery forms of elements of the integers modulo `m`, and the sequence of R203 over
these is the formulas by ring arithmetic. -/
theorem pointAdditionLaw : Obligations.PointAdditionLaw := by
  intro w k p q a b x1 y1 z1 x2 y2 z2 hw hodd hn0 n mont ha hb3 hp hq
  have hk : CtxOk k := by
    rw [CtxOk, hn0]
    exact n0Ok_n0inv hw hodd
  have hmont (v : Nat) : IsMont k.m (mont v) v := isMont_limbsOf hk.pos v
  have hsum := isMontPoint_paddT hk (ha ▸ hmont a) (hb3 ▸ hmont (3 * b)) (p := p) (q := q)
    (c := (x1, y1, z1)) (d := (x2, y2, z2)) (hp ▸ ⟨hmont x1, hmont y1, hmont z1⟩) (hq ▸ ⟨hmont x2, hmont y2, hmont z2⟩)
  have : NeZero (val k.m) := ⟨hk.pos.ne'⟩
  rw [Nat.cast_mul, Nat.cast_ofNat] at hsum
  generalize addFormula (a : ZMod (val k.m)) (3 * b) (x1, y1, z1) (x2, y2, z2) = c at hsum ⊢
  obtain ⟨hx, hy, hz⟩ := hsum
  refine ⟨c.1.val, c.2.1.val, c.2.2.val, ?_, by simp only [ZMod.natCast_zmod_val]⟩
  rw [← ZMod.natCast_zmod_val c.1] at hx
  rw [← ZMod.natCast_zmod_val c.2.1] at hy
  rw [← ZMod.natCast_zmod_val c.2.2] at hz
  simp only [mont, n, ← hx.eq_limbsOf, ← hy.eq_limbsOf, ← hz.eq_limbsOf]

/-- Settles O22: the sequence over vectors of which only the lengths are known; the counts are read off the list. -/
theorem pointAdditionOneSequence : Obligations.PointAdditionOneSequence := by
  intro w k p q hlen _
  simp only [List.forall_mem_cons] at hlen
  obtain ⟨hpx, hpy, hpz, hqx, hqy, hqz, ha, hb3, -⟩ := hlen
  have htrace := (paddT_rel_length ha hb3 (p := p) (q := q) ⟨hpx, hpy, hpz⟩ ⟨hqx, hqy, hqz⟩).1
  refine ⟨htrace, ?_, ?_⟩
  · rw [htrace]
    simp [paddUnitTrace, faTrace, fsTrace]
  · rw [htrace]
    rfl

end Sys2Proof.Machine
end

section
/-! SUPPORT. The exponentiation engine: what its table, its selection and its windows hold, and its trace, which takes
only the lengths of its vectors (43_modexp_engine.md R171, R177). -/

namespace Sys2Proof.Machine

/-! Traces. None depends on a value. -/

section
variable {w : Nat} (k : Ctx w)

theorem powTable_trace (base : Limbs w) (count : Nat) (prev : Limbs w) :
    (powTable k base count prev).trace = List.replicate count (.mmul k.m.length) := by
  induction count generalizing prev with
  | zero => rfl
  | succ count ih =>
    rw [powTable, bind_trace, bind_trace, ih]
    simp [mmT, Traced.pure, List.replicate_succ]

theorem squarings_trace (count : Nat) (acc : Limbs w) :
    (squarings k count acc).trace = List.replicate count (.mmul k.m.length) := by
  induction count generalizing acc with
  | zero => rfl
  | succ count ih =>
    rw [squarings, bind_trace, ih]
    rfl

theorem lookup_trace (win x i : Nat) (table : List (Limbs w)) (sel : Limbs w) :
    (lookup win x i table sel).trace = table.map fun t => .lsel t.length := by
  induction table generalizing i sel with
  | nil => rfl
  | cons t ts ih =>
    rw [lookup, bind_trace, ih]
    rfl

/-- One window: its squarings, one select for each entry of the table, one product (R171). -/
def windowTrace (n win : Nat) (table : List (Limbs w)) : List TraceEvent :=
  List.replicate win (.mmul n) ++ table.map (fun t => .lsel t.length) ++ [.mmul n]

theorem windows_trace (win : Nat) (table : List (Limbs w)) (e j : Nat) (acc : Limbs w) :
    (windows k win table e j acc).trace = (List.replicate j (windowTrace k.m.length win table)).flatten := by
  induction j generalizing acc with
  | zero => rfl
  | succ j ih =>
    rw [windows, bind_trace, bind_trace, bind_trace, ih, squarings_trace, lookup_trace]
    simp [mmT, windowTrace, List.replicate_succ]

/-- The table of powers MODEXP reads (R171). -/
def expTable (win : Nat) (base : Limbs w) : List (Limbs w) :=
  k.one :: base :: (powTable k base (2 ^ win - 2) base).val

theorem modexpT_val (win : Nat) (base : Limbs w) (e nb : Nat) :
    (modexpT k win base e nb).val = (windows k win (expTable k win base) e (windowCount win nb) k.one).val := rfl

theorem modexpT_trace (win : Nat) (base : Limbs w) (e nb : Nat) :
    (modexpT k win base e nb).trace = List.replicate (2 ^ win - 2) (.mmul k.m.length) ++
      (List.replicate (windowCount win nb) (windowTrace k.m.length win (expTable k win base))).flatten := by
  rw [modexpT, bind_trace, powTable_trace, windows_trace]
  rfl

end

/-! The table. -/

section
variable {w : Nat} {k : Ctx w} {base : Limbs w}

theorem length_powTable (k : Ctx w) (base : Limbs w) (count : Nat) (prev : Limbs w) :
    (powTable k base count prev).val.length = count := by
  induction count generalizing prev with
  | zero => rfl
  | succ count ih => exact congrArg (· + 1) (ih _)

theorem length_expTable {win : Nat} (hwin : 1 ≤ win) (k : Ctx w) (base : Limbs w) :
    (expTable k win base).length = 2 ^ win := by
  have := two_le_two_pow hwin
  rw [expTable, List.length_cons, List.length_cons, length_powTable]
  omega

theorem length_of_mem_powTable {count : Nat} {prev : Limbs w} (hprev : prev.length = k.m.length) {t : Limbs w}
    (ht : t ∈ (powTable k base count prev).val) : t.length = k.m.length := by
  induction count generalizing prev with
  | zero => cases ht
  | succ count ih =>
    have hnext : (mmT k prev base).val.length = k.m.length := length_montmul _ _ hprev.ge
    obtain rfl | ht := List.mem_cons.mp ht
    · exact hnext
    · exact ih hnext ht

theorem length_of_mem_expTable {win : Nat} (hbase : base.length = k.m.length) (hone : k.one.length = k.m.length)
    {t : Limbs w} (ht : t ∈ expTable k win base) : t.length = k.m.length := by
  obtain rfl | rfl | ht := List.mem_cons.mp ht |>.imp_right List.mem_cons.mp
  · exact hone
  · exact hbase
  · exact length_of_mem_powTable hbase ht

/-- With vectors of the modulus' length the trace is `MX(nb)` (70_reset_and_hazards.md R290). -/
theorem modexpT_trace_eq_mxTrace {win : Nat} (hwin : 1 ≤ win) (hbase : base.length = k.m.length)
    (hone : k.one.length = k.m.length) (e nb : Nat) :
    (modexpT k win base e nb).trace = mxTrace k.m.length win nb := by
  have hsel : (expTable k win base).map (fun t => TraceEvent.lsel t.length) =
      List.replicate (2 ^ win) (.lsel k.m.length) := by
    rw [← length_expTable hwin k base, ← List.map_const']
    exact List.map_congr_left fun t ht => congrArg _ (length_of_mem_expTable hbase hone ht)
  rw [modexpT_trace, windowTrace, hsel]
  rfl

/-- Entry `i` of the powers after `prev`. -/
theorem isMont_powTable (h : CtxOk k) {x y : ZMod (val k.m)} (hbase : IsMont k.m base x) {count : Nat} {prev : Limbs w}
    (hprev : IsMont k.m prev y) {i : Nat} (hi : i < (powTable k base count prev).val.length) :
    IsMont k.m (powTable k base count prev).val[i] (y * x ^ (i + 1)) := by
  induction count generalizing prev y i with
  | zero => cases hi
  | succ count ih =>
    have hnext := isMont_mmT h hprev hbase
    cases i with
    | zero => exact (pow_one x).symm ▸ hnext
    | succ i =>
      have := ih hnext (Nat.lt_of_succ_lt_succ hi)
      rwa [mul_assoc, ← pow_succ'] at this

/-- Entry `i` of the table is the base to the power `i`. -/
theorem isMont_expTable (h : CtxOk k) {x : ZMod (val k.m)} (hone : IsMont k.m k.one 1) (hbase : IsMont k.m base x)
    {win i : Nat} (hi : i < (expTable k win base).length) : IsMont k.m (expTable k win base)[i] (x ^ i) := by
  match i with
  | 0 => exact (pow_zero x).symm ▸ hone
  | 1 => exact (pow_one x).symm ▸ hbase
  | i + 2 =>
    have := isMont_powTable h hbase hbase (Nat.lt_of_succ_lt_succ (Nat.lt_of_succ_lt_succ hi))
    rwa [← pow_succ'] at this

/-! The selection by a scan of the table. -/

theorem eqw_eq_decide {win i x : Nat} (hwin : 1 ≤ win) (hi : i < 2 ^ win) (hx : x < 2 ^ win) :
    eqw win i x = decide (i = x) := by
  have hzero : BitVec.ofNat win i ^^^ BitVec.ofNat win x = 0#win ↔ i = x := by
    rw [BitVec.xor_eq_zero_iff, ← BitVec.toNat_inj, BitVec.toNat_ofNat, BitVec.toNat_ofNat, Nat.mod_eq_of_lt hi,
      Nat.mod_eq_of_lt hx]
  have hbit := topBit_or_neg_eq_false_iff hwin (BitVec.ofNat win i ^^^ BitVec.ofNat win x)
  rw [Bool.eq_iff_iff, decide_eq_true_iff, ← hzero, eqw, Bool.not_eq_true']
  exact hbit

/-- Before the entry it looks for, the scan drops what it holds; after it, it keeps it. -/
theorem lookup_val {win x : Nat} (hwin : 1 ≤ win) (hx : x < 2 ^ win) {n i : Nat} {table : List (Limbs w)}
    {sel : Limbs w} (hlen : ∀ t ∈ table, t.length = n) (hsel : sel.length = n) (hend : i + table.length ≤ 2 ^ win) :
    (x < i → (lookup win x i table sel).val = sel) ∧
    (∀ j (hj : j < table.length), x = i + j → (lookup win x i table sel).val = table[j]) := by
  induction table generalizing i sel with
  | nil => exact ⟨fun _ => rfl, fun j hj => absurd hj j.not_lt_zero⟩
  | cons t ts ih =>
    simp only [List.forall_mem_cons, List.length_cons] at hlen hend
    obtain ⟨ht, hts⟩ := hlen
    have hbit : eqw win i x = decide (i = x) := eqw_eq_decide hwin (by omega) hx
    have hkeep : i ≠ x → (lookup win x i (t :: ts) sel).val = (lookup win x (i + 1) ts sel).val := fun hne => by
      rw [lookup, bind_val, selectT, hbit, decide_eq_false hne, selectN_false (ht.trans hsel.symm)]
    have htake : i = x → (lookup win x i (t :: ts) sel).val = (lookup win x (i + 1) ts t).val := fun he => by
      rw [lookup, bind_val, selectT, hbit, decide_eq_true he, selectN_true (ht.trans hsel.symm)]
    refine ⟨fun hlt => ?_, fun j hj hxj => ?_⟩
    · rw [hkeep (by omega)]
      exact (ih hts hsel (by omega)).1 (by omega)
    · cases j with
      | zero =>
        rw [htake (by omega)]
        exact (ih hts ht (by omega)).1 (by omega)
      | succ j =>
        rw [hkeep (by omega)]
        exact (ih hts hsel (by omega)).2 j (Nat.lt_of_succ_lt_succ hj) (by omega)

/-! The windows. -/

theorem isMont_squarings (h : CtxOk k) {acc : Limbs w} {y : ZMod (val k.m)} (hacc : IsMont k.m acc y) (count : Nat) :
    IsMont k.m (squarings k count acc).val (y ^ 2 ^ count) := by
  induction count generalizing acc y with
  | zero => rwa [pow_zero, pow_one]
  | succ count ih =>
    have := ih (isMont_mmT h hacc hacc)
    rwa [← pow_two, ← pow_mul, ← Nat.pow_succ'] at this

/-- The exponent's part above a window, with the window, is its part above the next. -/
theorem shiftRight_window (e win j : Nat) :
    e >>> ((j + 1) * win) * 2 ^ win + e >>> (j * win) % 2 ^ win = e >>> (j * win) := by
  rw [Nat.add_mul, Nat.one_mul, Nat.shiftRight_add, Nat.shiftRight_eq_div_pow _ win, Nat.div_add_mod']

/-- The accumulator is the base to the exponent's part read so far; at the end, to all of it. -/
theorem isMont_windows (h : CtxOk k) {x : ZMod (val k.m)} {win : Nat} (hwin : 1 ≤ win) (hone : IsMont k.m k.one 1)
    (hbase : IsMont k.m base x) (e j : Nat) {acc : Limbs w} (hacc : IsMont k.m acc (x ^ (e >>> (j * win)))) :
    IsMont k.m (windows k win (expTable k win base) e j acc).val (x ^ e) := by
  induction j generalizing acc with
  | zero => rwa [Nat.zero_mul] at hacc
  | succ j ih =>
    have hlt : e >>> (j * win) % 2 ^ win < 2 ^ win := Nat.mod_lt _ (Nat.two_pow_pos win)
    have hi : e >>> (j * win) % 2 ^ win < (expTable k win base).length := by rwa [length_expTable hwin]
    have hsel : (lookup win (e >>> (j * win) % 2 ^ win) 0 (expTable k win base) (limbsOf w k.m.length 0)).val =
        (expTable k win base)[e >>> (j * win) % 2 ^ win] :=
      (lookup_val hwin hlt (fun t ht => length_of_mem_expTable hbase.length_eq hone.length_eq ht) (length_limbsOf ..)
        (by rw [length_expTable hwin, Nat.zero_add])).2 _ hi (Nat.zero_add _).symm
    refine ih (acc := (mmT k (squarings k win acc).val _).val) ?_
    have := isMont_mmT h (isMont_squarings h hacc win) (isMont_expTable h hone hbase hi)
    rwa [← hsel, ← pow_mul, ← pow_add, shiftRight_window] at this

theorem le_windowCount_mul {win : Nat} (hwin : 1 ≤ win) (nb : Nat) : nb ≤ windowCount win nb * win := by
  rw [windowCount]
  have := Nat.div_add_mod' (nb + win - 1) win
  have := Nat.mod_lt (nb + win - 1) hwin
  omega

/-- MODEXP raises the base to the exponent (R172). -/
theorem isMont_modexpT (h : CtxOk k) {x : ZMod (val k.m)} {win e nb : Nat} (hwin : 1 ≤ win) (he : e < 2 ^ nb)
    (hone : IsMont k.m k.one 1) (hbase : IsMont k.m base x) : IsMont k.m (modexpT k win base e nb).val (x ^ e) := by
  rw [modexpT_val]
  refine isMont_windows h hwin hone hbase e _ ?_
  have hzero : e >>> (windowCount win nb * win) = 0 := by
    rw [Nat.shiftRight_eq_div_pow]
    exact Nat.div_eq_of_lt (he.trans_le (Nat.pow_le_pow_right Nat.two_pos (le_windowCount_mul hwin nb)))
  rwa [hzero, pow_zero]

end

end Sys2Proof.Machine
end

section
/-! The statements: MODEXP: its value and the number of its operations (43_modexp_engine.md R172, R177). -/

namespace Sys2Proof.Machine

/-- Settles O18: in the context of `m` the accumulator is the Montgomery form of the base to the exponent's part above
the windows left, by induction on these. -/
theorem exponentiationLaw : Obligations.ExponentiationLaw := by
  intro w win x e nb m base hw hwin hodd _ he hlen hbase
  obtain ⟨⟨hm, hn0⟩, ⟨honeLen, honeVal⟩, -⟩ := mkctx_spec hw hodd
  show (modexpT (mkctx m).val win base e nb).val.length = m.length ∧ val (modexpT (mkctx m).val win base e nb).val = _
  generalize (mkctx m).val = k at hm hn0 honeLen honeVal ⊢
  subst hm
  have hk : CtxOk k := by
    rw [CtxOk, hn0]
    exact n0Ok_n0inv hw hodd
  have hone : IsMont k.m k.one (1 : Nat) := (isMont_natCast_iff hk.pos honeLen 1).mpr (by rw [honeVal, one_mul])
  have hpow := isMont_modexpT hk hwin he (Nat.cast_one (R := ZMod (val k.m)) ▸ hone)
    ((isMont_natCast_iff hk.pos hlen x).mpr hbase)
  rw [← Nat.cast_pow] at hpow
  exact ⟨hpow.length_eq, by rw [hpow.val_eq, Nat.mod_mul_mod]⟩

/-- Settles O19: the trace is `MX(nb)`, whose events are counted. -/
theorem exponentiationOperationCount : Obligations.ExponentiationOperationCount := by
  intro w win e nb k base hwin hbase hone t nwin
  have ht : t = mxTrace k.m.length win nb := modexpT_trace_eq_mxTrace hwin hbase hone e nb
  refine ⟨?_, ?_, fun _ => ht⟩
  · rw [ht]
    simp [mxTrace, List.count_flatten, List.count_replicate, nwin]
  · rw [ht]
    simp [mxTrace, List.countP_flatten, List.countP_replicate, nwin]

end Sys2Proof.Machine
end

section
/-! SUPPORT. What the invariant gives the units: registers as limb vectors in range, a loaded slot as a context whose
multiplier works, tagged registers as Montgomery forms (10_state.md R24, R33). -/

namespace Sys2Proof.Machine

/-- The invariant without the status. -/
structure BlockOk (s : State) : Prop where
  params : LegalParams s.params
  regs : ∀ i : VIdx, RegOk s (s.reg i)
  slots : ∀ k : CIdx, SlotOk s.params (s.slot k)

theorem Inv.block {s : State} (h : Inv s) : BlockOk s := by
  obtain ⟨hp, hregs, hslots, -⟩ := h
  exact ⟨hp, hregs, hslots⟩

theorem width_mul_lmax_le {p : Params} (h : LegalParams p) : p.w * lmax p ≤ 4096 := by
  obtain ⟨-, ⟨-, -, hmax⟩, -⟩ := h
  exact (Nat.mul_div_le p.lmaxBits p.w).trans hmax

theorem one_le_width {p : Params} (h : LegalParams p) : 1 ≤ p.w := by
  obtain ⟨hw, -⟩ := h
  omega

theorem one_le_win {p : Params} (h : LegalParams p) : 1 ≤ p.win := by
  obtain ⟨-, -, ⟨hwin, -⟩, -⟩ := h
  exact hwin

/-! Limb vectors in registers and slots. -/

theorem mkReg_eq_regOf {w : Nat} (form : Form) (k : CIdx) (a : Limbs w) :
    mkReg form k a = regOf a.length form k (val a) := rfl

theorem toNat_ofNat_val {w n : Nat} {a : Limbs w} (h : w * a.length ≤ n) : (BitVec.ofNat n (val a)).toNat = val a := by
  rw [BitVec.toNat_ofNat, Nat.mod_eq_of_lt ((val_lt a).trans_le (Nat.pow_le_pow_right Nat.two_pos h))]

/-- A vector that fits a register is read back. -/
theorem toNat_packed {p : Params} (hp : LegalParams p) {a : Limbs p.w} (ha : a.length ≤ lmax p) :
    (packed a).toNat = val a :=
  toNat_ofNat_val ((Nat.mul_le_mul_left p.w ha).trans (width_mul_lmax_le hp))

section
variable {s : State} (h : BlockOk s)
include h

theorem BlockOk.data_lt (i : VIdx) : (s.reg i).data.toNat < radix s.params (s.reg i).len := by
  obtain ⟨hcleared, hvalid, -⟩ := h.regs i
  cases hv : (s.reg i).valid with
  | true =>
    obtain ⟨-, -, hlt⟩ := hvalid hv
    exact hlt
  | false =>
    rw [hcleared hv, show VReg.cleared.data.toNat = 0 from BitVec.toNat_zero]
    exact Nat.two_pow_pos _

theorem BlockOk.val_limbs (i : VIdx) : val (s.limbs i) = (s.reg i).data.toNat :=
  Machine.val_limbs s i (h.data_lt i)

theorem BlockOk.len_le (i : VIdx) : (s.reg i).len ≤ lmax s.params := len_le_of_regOk (h.regs i)

theorem BlockOk.len_pos {i : VIdx} (hv : (s.reg i).valid = true) : 1 ≤ (s.reg i).len := by
  obtain ⟨-, hvalid, -⟩ := h.regs i
  obtain ⟨hpos, -⟩ := hvalid hv
  exact hpos

/-- Of a register tagged with a slot: its slot is loaded, and its value is canonical for it. -/
theorem BlockOk.tagged {i : VIdx} (hform : (s.reg i).form ≠ .std) :
    (s.slot (s.reg i).ctx).cvalid = true ∧ (s.reg i).len = (s.slot (s.reg i).ctx).clen ∧
    (s.reg i).data.toNat < (s.slot (s.reg i).ctx).m.toNat := by
  obtain ⟨-, -, -, htagged, -⟩ := h.regs i
  exact htagged hform

end

/-- What a loaded slot holds (10_state.md R33). -/
structure SlotLoaded (p : Params) (k : Slot) : Prop where
  len_pos : 1 ≤ k.clen
  len_le : k.clen ≤ lmax p
  odd : k.m.toNat % 2 = 1
  lt : k.m.toNat < radix p k.clen
  one_eq : k.one.toNat = radix p k.clen % k.m.toNat
  rr_eq : k.rr.toNat = radix p k.clen ^ 2 % k.m.toNat
  n0_lt : k.n0.toNat < 2 ^ p.w
  n0_eq : (k.m.toNat * k.n0.toNat + 1) % 2 ^ p.w = 0

/-- What a slot with a curve holds besides. -/
structure SlotCurve (p : Params) (k : Slot) : Prop where
  loaded : k.cvalid = true
  a_lt : k.a.toNat < k.m.toNat
  b_lt : k.b.toNat < k.m.toNat
  b3_eq : k.b3.toNat = 3 * k.b.toNat % k.m.toNat
  ordlen_pos : 1 ≤ k.ordlen
  ordlen_le : k.ordlen ≤ lmax p
  ord_lt : k.ord.toNat < radix p k.ordlen

section
variable {s : State} (h : BlockOk s) {k : CIdx}
include h

theorem BlockOk.slotLoaded (hk : (s.slot k).cvalid = true) : SlotLoaded s.params (s.slot k) := by
  obtain ⟨-, hloaded, -⟩ := h.slots k
  obtain ⟨⟨hpos, hle⟩, ⟨hodd, hlt⟩, hone, hrr, hn0, hinv⟩ := hloaded hk
  exact ⟨hpos, hle, hodd, hlt, hone, hrr, hn0, hinv⟩

theorem BlockOk.slotCurve (hk : (s.slot k).kvalid = true) : SlotCurve s.params (s.slot k) := by
  obtain ⟨-, -, -, hcurve⟩ := h.slots k
  obtain ⟨hc, ⟨ha, hb, hb3⟩, ⟨hpos, hle⟩, hlt⟩ := hcurve hk
  exact ⟨hc, ha, hb, hb3, hpos, hle, hlt⟩

end

/-! The context of a loaded slot. -/

section
variable {s : State} {k : CIdx}

theorem SlotLoaded.val_m (h : SlotLoaded s.params (s.slot k)) : val (s.ctx k).m = (s.slot k).m.toNat := by
  rw [State.ctx, val_limbsOf, Nat.mod_eq_of_lt h.lt]

/-- A field of a slot that is below the modulus. -/
theorem SlotLoaded.val_field (h : SlotLoaded s.params (s.slot k)) {x : Nat} (hx : x < (s.slot k).m.toNat) :
    val (limbsOf s.params.w (s.slot k).clen x) = x := by
  rw [val_limbsOf, Nat.mod_eq_of_lt (hx.trans h.lt)]

theorem SlotLoaded.m_pos (h : SlotLoaded s.params (s.slot k)) : 0 < (s.slot k).m.toNat := by
  have := h.odd
  omega

theorem SlotLoaded.ctxOk (h : SlotLoaded s.params (s.slot k)) (hp : LegalParams s.params) : CtxOk (s.ctx k) where
  width := one_le_width hp
  odd := by rw [h.val_m, h.odd]
  inverse := by
    rw [h.val_m, State.ctx, BitVec.toNat_ofNat, Nat.mod_eq_of_lt h.n0_lt, h.n0_eq]

theorem SlotLoaded.val_one (h : SlotLoaded s.params (s.slot k)) : val (s.ctx k).one = (s.slot k).one.toNat :=
  h.val_field (h.one_eq ▸ Nat.mod_lt _ h.m_pos)

theorem SlotLoaded.val_rr (h : SlotLoaded s.params (s.slot k)) : val (s.ctx k).rr = (s.slot k).rr.toNat :=
  h.val_field (h.rr_eq ▸ Nat.mod_lt _ h.m_pos)

/-- A vector of the slot's length with the value `x*R mod m` is the Montgomery form of `x`. -/
theorem SlotLoaded.isMont_iff (h : SlotLoaded s.params (s.slot k)) {a : Limbs s.params.w}
    (ha : a.length = (s.slot k).clen) (x : Nat) :
    IsMont (s.ctx k).m a x ↔ val a = x * radix s.params (s.slot k).clen % (s.slot k).m.toNat := by
  rw [isMont_natCast_iff (h.val_m ▸ h.m_pos) (ha.trans (length_ctx_m s k).symm), h.val_m, length_ctx_m]

theorem SlotLoaded.isMont_one (h : SlotLoaded s.params (s.slot k)) : IsMont (s.ctx k).m (s.ctx k).one 1 := by
  have := (h.isMont_iff (length_ctx_one s k) 1).mpr (by rw [h.val_one, h.one_eq, one_mul])
  rwa [Nat.cast_one] at this

/-- TOMONT in the slot's context. -/
theorem SlotLoaded.isMont_tomontT (h : SlotLoaded s.params (s.slot k)) (hp : LegalParams s.params)
    {a : Limbs s.params.w} (ha : a.length = (s.slot k).clen) : IsMont (s.ctx k).m (tomontT (s.ctx k) a).val (val a) :=
  Machine.isMont_tomontT (h.ctxOk hp) (by simp) (by rw [h.val_rr, h.rr_eq, h.val_m, length_ctx_m])
    (ha.trans (length_ctx_m s k).symm)

theorem SlotCurve.val_order (h : SlotCurve s.params (s.slot k)) : val (s.order k) = (s.slot k).ord.toNat := by
  rw [State.order, val_limbsOf, Nat.mod_eq_of_lt h.ord_lt]

theorem SlotCurve.val_a (h : SlotCurve s.params (s.slot k)) (hk : SlotLoaded s.params (s.slot k)) :
    val (s.ctx k).a = (s.slot k).a.toNat := hk.val_field h.a_lt

theorem SlotCurve.val_b (h : SlotCurve s.params (s.slot k)) (hk : SlotLoaded s.params (s.slot k)) :
    val (s.ctx k).b = (s.slot k).b.toNat := hk.val_field h.b_lt

theorem SlotCurve.val_b3 (h : SlotCurve s.params (s.slot k)) (hk : SlotLoaded s.params (s.slot k)) :
    val (s.ctx k).b3 = (s.slot k).b3.toNat := hk.val_field (h.b3_eq ▸ Nat.mod_lt _ hk.m_pos)

theorem SlotCurve.isMont_a (h : SlotCurve s.params (s.slot k)) (hk : SlotLoaded s.params (s.slot k)) {a : Nat}
    (ha : (s.slot k).a.toNat = a * radix s.params (s.slot k).clen % (s.slot k).m.toNat) :
    IsMont (s.ctx k).m (s.ctx k).a a := (hk.isMont_iff (length_ctx_a s k) a).mpr ((h.val_a hk).trans ha)

theorem SlotCurve.isMont_b (h : SlotCurve s.params (s.slot k)) (hk : SlotLoaded s.params (s.slot k)) {b : Nat}
    (hb : (s.slot k).b.toNat = b * radix s.params (s.slot k).clen % (s.slot k).m.toNat) :
    IsMont (s.ctx k).m (s.ctx k).b b := (hk.isMont_iff (length_ctx_b s k) b).mpr ((h.val_b hk).trans hb)

/-- The slot's third constant is three times its second. -/
theorem SlotCurve.isMont_b3 (h : SlotCurve s.params (s.slot k)) (hk : SlotLoaded s.params (s.slot k))
    {b : ZMod (val (s.ctx k).m)} (hb : IsMont (s.ctx k).m (s.ctx k).b b) : IsMont (s.ctx k).m (s.ctx k).b3 (3 * b) where
  length_eq := by simp
  lt := by
    rw [h.val_b3 hk, h.b3_eq, hk.val_m]
    exact Nat.mod_lt _ hk.m_pos
  cast_eq := by
    rw [h.val_b3 hk, h.b3_eq, ← h.val_b hk, ← hk.val_m, ZMod.natCast_mod, Nat.cast_mul, hb.cast_eq, Nat.cast_ofNat,
      mul_assoc]

/-- The curve's constants stand for something. -/
theorem SlotCurve.exists_isMont (h : SlotCurve s.params (s.slot k)) (hk : SlotLoaded s.params (s.slot k)) :
    ∃ a b, IsMont (s.ctx k).m (s.ctx k).a a ∧ IsMont (s.ctx k).m (s.ctx k).b b := by
  have hodd : val (s.ctx k).m % 2 = 1 := by rw [hk.val_m, hk.odd]
  obtain ⟨a, ha⟩ := Machine.exists_isMont hodd (a := (s.ctx k).a) (by simp) (by rw [h.val_a hk, hk.val_m]; exact h.a_lt)
  obtain ⟨b, hb⟩ := Machine.exists_isMont hodd (a := (s.ctx k).b) (by simp) (by rw [h.val_b hk, hk.val_m]; exact h.b_lt)
  exact ⟨a, b, ha, hb⟩

end

/-! Tagged registers. -/

section
variable {s : State} (h : BlockOk s) {i : VIdx} {k : CIdx}
include h

theorem BlockOk.len_of_tag (hform : (s.reg i).form ≠ .std) (hctx : (s.reg i).ctx = k) :
    (s.reg i).len = (s.slot k).clen := by
  obtain ⟨-, hlen, -⟩ := h.tagged hform
  rw [hlen, hctx]

/-- A register tagged with a slot is the Montgomery form of what its data says. -/
theorem BlockOk.isMont_limbs (hform : (s.reg i).form ≠ .std) (hctx : (s.reg i).ctx = k) {x : Nat}
    (hx : (s.reg i).data.toNat = x * radix s.params (s.slot k).clen % (s.slot k).m.toNat) :
    IsMont (s.ctx k).m (s.limbs i) x := by
  obtain ⟨hk, hlen, -⟩ := h.tagged hform
  rw [hctx] at hk hlen
  exact ((h.slotLoaded hk).isMont_iff ((length_limbs s i).trans hlen) x).mpr ((h.val_limbs i).trans hx)

theorem BlockOk.exists_isMont (hform : (s.reg i).form ≠ .std) (hctx : (s.reg i).ctx = k) :
    ∃ x, IsMont (s.ctx k).m (s.limbs i) x := by
  obtain ⟨hk, hlen, hlt⟩ := h.tagged hform
  rw [hctx] at hk hlen hlt
  have hload := h.slotLoaded hk
  refine Machine.exists_isMont (by rw [hload.val_m, hload.odd]) (by simp [hlen]) ?_
  rw [h.val_limbs, hload.val_m]
  exact hlt

end

/-- The registers of a tagged triple. -/
structure TripleOf (s : State) (b : VIdx) (k : CIdx) : Prop where
  form : (s.reg b).form = .px ∧ (s.reg (b + 1)).form = .py ∧ (s.reg (b + 2)).form = .pz
  ctx : (s.reg b).ctx = k ∧ (s.reg (b + 1)).ctx = k ∧ (s.reg (b + 2)).ctx = k

theorem tripleTagged_iff (s : State) (b : VIdx) (k : CIdx) : tripleTagged s b k = true ↔ TripleOf s b k := by
  simp only [tripleTagged, Bool.and_eq_true, beq_iff_eq]
  exact ⟨fun ⟨⟨⟨⟨⟨hx, hy⟩, hz⟩, cx⟩, cy⟩, cz⟩ => ⟨⟨hx, hy, hz⟩, cx, cy, cz⟩,
    fun ⟨⟨hx, hy, hz⟩, cx, cy, cz⟩ => ⟨⟨⟨⟨⟨hx, hy⟩, hz⟩, cx⟩, cy⟩, cz⟩⟩

section
variable {s : State} {b : VIdx} {k : CIdx} (ht : TripleOf s b k)
include ht

theorem TripleOf.form_ne : (s.reg b).form ≠ .std ∧ (s.reg (b + 1)).form ≠ .std ∧ (s.reg (b + 2)).form ≠ .std := by
  obtain ⟨hx, hy, hz⟩ := ht.form
  simp [hx, hy, hz]

theorem TripleOf.hasLength (h : BlockOk s) : (s.point b).HasLength (s.slot k).clen := by
  obtain ⟨hx, hy, hz⟩ := ht.form_ne
  obtain ⟨cx, cy, cz⟩ := ht.ctx
  exact ⟨by simp [State.point, h.len_of_tag hx cx], by simp [State.point, h.len_of_tag hy cy],
    by simp [State.point, h.len_of_tag hz cz]⟩

theorem TripleOf.isMontPoint (h : BlockOk s) {x y z : Nat}
    (hx : (s.reg b).data.toNat = x * radix s.params (s.slot k).clen % (s.slot k).m.toNat)
    (hy : (s.reg (b + 1)).data.toNat = y * radix s.params (s.slot k).clen % (s.slot k).m.toNat)
    (hz : (s.reg (b + 2)).data.toNat = z * radix s.params (s.slot k).clen % (s.slot k).m.toNat) :
    IsMontPoint (s.ctx k).m (s.point b) (x, y, z) := by
  obtain ⟨fx, fy, fz⟩ := ht.form_ne
  obtain ⟨cx, cy, cz⟩ := ht.ctx
  exact ⟨h.isMont_limbs fx cx hx, h.isMont_limbs fy cy hy, h.isMont_limbs fz cz hz⟩

theorem TripleOf.exists_isMontPoint (h : BlockOk s) : ∃ c, IsMontPoint (s.ctx k).m (s.point b) c := by
  obtain ⟨fx, fy, fz⟩ := ht.form_ne
  obtain ⟨cx, cy, cz⟩ := ht.ctx
  obtain ⟨x, hx⟩ := h.exists_isMont fx cx
  obtain ⟨y, hy⟩ := h.exists_isMont fy cy
  obtain ⟨z, hz⟩ := h.exists_isMont fz cz
  exact ⟨(x, y, z), hx, hy, hz⟩

end

end Sys2Proof.Machine
end

section
/-! SUPPORT. Comparisons as decisions about values, and the functions of the curve units in terms of Montgomery forms:
SCALARMULT, ONCURVE, the constants of CRVLOAD, the affine coordinates of PTAFF (45_ec_point_adder.md R205, R206, R211;
46_ecc_scalar_multiplier.md R220). -/

namespace Sys2Proof.Machine

theorem isZeroN_eq {w : Nat} (hw : 1 ≤ w) (a : Limbs w) : isZeroN a = decide (val a = 0) :=
  Bool.eq_iff_iff.mpr ((isZeroN_iff hw a).trans decide_eq_true_iff.symm)

theorem cmpN_eq {w : Nat} (hw : 1 ≤ w) {a b : Limbs w} (hl : a.length = b.length) :
    cmpN a b = ⟨decide (val a < val b), decide (val a = val b), decide (val b < val a)⟩ := by
  obtain ⟨-, hlt, heq, hgt⟩ := zeroTestAndComparisonLaw w a b hw hl
  simp only [← hlt, ← heq, ← hgt, Bool.decide_eq_true]

theorem selectN_eq_ite {w : Nat} {a b : Limbs w} (hl : a.length = b.length) (f : Bool) :
    selectN f a b = if f then a else b := by
  cases f
  · exact selectN_false hl
  · exact selectN_true hl

section
variable {w : Nat} {k : Ctx w}

/-! SCALARMULT. -/

/-- What one step of the ladder leaves: the double, and the point added to it where the bit is set (R220). -/
def ladderStep (k : Ctx w) (p acc : Point w) (bit : Bool) : Point w :=
  let dbl := (paddT k acc acc).val
  if bit then (paddT k dbl p).val else dbl

section
variable (ha : k.a.length = k.m.length) (hb3 : k.b3.length = k.m.length) {p : Point w} (hp : p.HasLength k.m.length)
include ha hb3 hp

theorem length_ladderStep {acc : Point w} (hacc : acc.HasLength k.m.length) (bit : Bool) :
    (ladderStep k p acc bit).HasLength k.m.length := by
  have hdbl := (paddT_rel_length ha hb3 hacc hacc).2
  cases bit
  · exact hdbl
  · exact (paddT_rel_length ha hb3 hdbl hp).2

theorem ladder_succ (scalar i : Nat) {acc : Point w} (hacc : acc.HasLength k.m.length) :
    (ladder k p scalar (i + 1) acc).val = (ladder k p scalar i (ladderStep k p acc (scalar.testBit i))).val ∧
    (ladder k p scalar (i + 1) acc).trace =
      [.padd k.m.length, .padd k.m.length, .lsel k.m.length, .lsel k.m.length, .lsel k.m.length] ++
        (ladder k p scalar i (ladderStep k p acc (scalar.testBit i))).trace := by
  have hdbl := (paddT_rel_length ha hb3 hacc hacc).2
  have hsum := (paddT_rel_length ha hb3 hdbl hp).2
  have hpadd (p q : Point w) : paddE k p q = ⟨(paddT k p q).val, [.padd k.m.length]⟩ := rfl
  rw [ladder, hpadd, ladderStep]
  generalize (paddT k acc acc).val = dbl at hdbl hsum ⊢
  rw [Traced.bind, hpadd]
  generalize (paddT k dbl p).val = sum at hsum ⊢
  simp only [Traced.bind, selectT_val, selectT_trace, selectN_eq_ite (hsum.x.trans hdbl.x.symm),
    selectN_eq_ite (hsum.y.trans hdbl.y.symm), selectN_eq_ite (hsum.z.trans hdbl.z.symm), hsum.x, hsum.y, hsum.z]
  cases scalar.testBit i
  · exact ⟨rfl, rfl⟩
  · exact ⟨rfl, rfl⟩

theorem ladder_trace (scalar i : Nat) {acc : Point w} (hacc : acc.HasLength k.m.length) :
    (ladder k p scalar i acc).trace = (List.replicate i
      [.padd k.m.length, .padd k.m.length, .lsel k.m.length, .lsel k.m.length, .lsel k.m.length]).flatten := by
  induction i generalizing acc with
  | zero => rfl
  | succ i ih =>
    rw [(ladder_succ ha hb3 hp scalar i hacc).2, ih (length_ladderStep ha hb3 hp hacc _), List.replicate_succ,
      List.flatten_cons]

end

/-- The ladder follows the formulas of R220, step by step. -/
theorem isMontPoint_ladder (h : CtxOk k) {a b3 : ZMod (val k.m)} (ha : IsMont k.m k.a a) (hb3 : IsMont k.m k.b3 b3)
    {p : Point w} {c : ZMod (val k.m) × ZMod (val k.m) × ZMod (val k.m)} (hp : IsMontPoint k.m p c) (scalar i : Nat)
    {acc : Point w} {d : ZMod (val k.m) × ZMod (val k.m) × ZMod (val k.m)} (hacc : IsMontPoint k.m acc d) :
    IsMontPoint k.m (ladder k p scalar i acc).val (ladderFormula a b3 c scalar i d) := by
  induction i generalizing acc d with
  | zero => exact hacc
  | succ i ih =>
    rw [(ladder_succ ha.length_eq hb3.length_eq hp.hasLength scalar i hacc.hasLength).1, ladderFormula, ladderStep]
    have hdbl := isMontPoint_paddT h ha hb3 hacc hacc
    have hsum := isMontPoint_paddT h ha hb3 hdbl hp
    cases scalar.testBit i
    · exact ih hdbl
    · exact ih hsum

theorem isMont_zero (h : CtxOk k) : IsMont k.m (limbsOf w k.m.length 0) 0 where
  length_eq := length_limbsOf ..
  lt := by
    rw [val_limbsOf, Nat.zero_mod]
    exact h.pos
  cast_eq := by
    rw [val_limbsOf, Nat.zero_mod, Nat.cast_zero, zero_mul]

theorem isMontPoint_infinity (h : CtxOk k) (hone : IsMont k.m k.one 1) : IsMontPoint k.m (infinity k) (0, 1, 0) :=
  ⟨isMont_zero h, hone, isMont_zero h⟩

/-! ONCURVE. -/

/-- The test compares the Montgomery forms of the two sides of the equation. -/
theorem oncurveT_ok (h : CtxOk k) {x y : Limbs w} {a b cx cy : ZMod (val k.m)} (ha : IsMont k.m k.a a)
    (hb : IsMont k.m k.b b) (hx : IsMont k.m (tomontT k x).val cx) (hy : IsMont k.m (tomontT k y).val cy) :
    (oncurveT k x y).val.ok = decide (cy ^ 2 = cx ^ 3 + a * cx + b) := by
  have hcube := isMont_mmT h (isMont_mmT h hx hx) hx
  have hright := isMont_faddT h (isMont_faddT h hcube (isMont_mmT h ha hx)) hb
  have hleft := isMont_mmT h hy hy
  have hok : (oncurveT k x y).val.ok = (cmpN _ _).eq := rfl
  rw [hok, cmpN_eq h.width (hleft.length_eq.trans hright.length_eq.symm)]
  refine decide_eq_decide.mpr ((hleft.val_inj h.odd hright).trans ?_)
  rw [← pow_two, ← pow_three']

theorem oncurveT_trace {x y : Limbs w} (hx : x.length = k.m.length) (hy : y.length = k.m.length)
    (hb : k.b.length = k.m.length) (ha : k.a.length = k.m.length) : (oncurveT k x y).trace =
      List.replicate 6 (.mmul k.m.length) ++ faTrace k.m.length ++ faTrace k.m.length ++ [.lcmp k.m.length] := by
  have hmul (a b : Limbs w) (h : a.length = k.m.length) : (mmT k a b).val.length = k.m.length := length_montmul _ _ h.ge
  have hxm := hmul x k.rr hx
  have hym := hmul y k.rr hy
  have hcube := hmul _ (mmT k x k.rr).val (hmul _ (mmT k x k.rr).val hxm)
  have hax := hmul k.a (mmT k x k.rr).val ha
  have hsum := length_faddT hcube hax
  simp only [oncurveT, bind_trace, tomontT, mmT_trace, faddT_trace hcube hax, faddT_trace hsum hb, cmpT_trace,
    hmul _ _ hym, pure_trace]
  simp [faTrace]

/-! The constants of CRVLOAD. -/

theorem isMont_curveConstT (h : CtxOk k) {x y : Limbs w} {a b : ZMod (val k.m)} (hx : IsMont k.m (tomontT k x).val a)
    (hy : IsMont k.m (tomontT k y).val b) : IsMont k.m (curveConstT k x y).val.1 a ∧
      IsMont k.m (curveConstT k x y).val.2.1 b ∧ IsMont k.m (curveConstT k x y).val.2.2 (3 * b) := by
  have hthree := isMont_faddT h (isMont_faddT h hy hy) hy
  rw [show b + b + b = 3 * b by ring] at hthree
  exact ⟨hx, hy, hthree⟩

theorem curveConstT_trace {x y : Limbs w} (hy : y.length = k.m.length) : (curveConstT k x y).trace =
      [.mmul k.m.length, .mmul k.m.length] ++ faTrace k.m.length ++ faTrace k.m.length := by
  have hym : (tomontT k y).val.length = k.m.length := length_montmul _ _ hy.ge
  have hsum := length_faddT hym hym
  simp only [curveConstT, bind_trace, faddT_trace hym hym, faddT_trace hsum hym, pure_trace]
  simp [tomontT, faTrace]

theorem rangeT_val (hw : 1 ≤ w) {m a b : Limbs w} (ha : a.length = m.length) (hb : b.length = m.length) :
    (rangeT m a b).val = (decide (val a < val m) && decide (val b < val m)) := by
  rw [rangeT, bind_val, bind_val, pure_val, cmpT_val, cmpT_val, cmpN_eq hw ha, cmpN_eq hw hb]

theorem rangeT_trace (m a b : Limbs w) : (rangeT m a b).trace = [.lcmp a.length, .lcmp b.length] := rfl

/-! The affine coordinates. -/

/-- The exponent of the inversion; for `m = 1` it wraps, where it does not matter. -/
theorem val_subN_two (h : CtxOk k) (hm : 3 ≤ val k.m) : val (subN k.m (limbsOf w k.m.length 2)).1 = val k.m - 2 := by
  have htwo : val (limbsOf w k.m.length 2) = 2 := by
    rw [val_limbsOf, Nat.mod_eq_of_lt (lt_of_lt_of_le (by omega) (val_lt k.m).le)]
  have hl : k.m.length = (limbsOf w k.m.length 2).length := (length_limbsOf ..).symm
  have hlaw := val_subN h.width hl
  have hborrow := subN_borrow_iff h.width hl
  rw [htwo] at hlaw hborrow
  have : (subN k.m (limbsOf w k.m.length 2)).2 = false := by
    rw [← Bool.not_eq_true, hborrow]
    omega
  rw [this, Bool.toNat_false] at hlaw
  omega

theorem isMont_inverse (h : CtxOk k) {win : Nat} (hwin : 1 ≤ win) (hone : IsMont k.m k.one 1) {z : Limbs w}
    {cz : ZMod (val k.m)} (hz : IsMont k.m z cz) :
    IsMont k.m (modexpT k win z (val (subN k.m (limbsOf w k.m.length 2)).1) (w * k.m.length)).val
      (cz ^ (val k.m - 2)) := by
  have hlen : (subN k.m (limbsOf w k.m.length 2)).1.length = k.m.length := by simp
  have hpow := isMont_modexpT h hwin (hlen ▸ val_lt (subN k.m (limbsOf w k.m.length 2)).1) hone hz
  obtain hm | hm : val k.m = 1 ∨ 3 ≤ val k.m := by
    have := h.odd
    omega
  · have : Subsingleton (ZMod (val k.m)) := ZMod.subsingleton_iff.mpr hm
    rwa [Subsingleton.elim (cz ^ (val k.m - 2))]
  · rwa [val_subN_two h hm] at hpow ⊢

/-- The affine coordinates, each below the modulus and equal to the coordinate times the inverse (R211). -/
theorem affineT_val (h : CtxOk k) {win : Nat} (hwin : 1 ≤ win) (hone : IsMont k.m k.one 1) {p : Point w}
    {cx cy cz : ZMod (val k.m)} (hp : IsMontPoint k.m p (cx, cy, cz)) :
    ((affineT k win p).val.1 = decide (cz = 0)) ∧
    ((affineT k win p).val.2.1.length = k.m.length ∧ val (affineT k win p).val.2.1 < val k.m ∧
      (val (affineT k win p).val.2.1 : ZMod (val k.m)) = cx * cz ^ (val k.m - 2)) ∧
    ((affineT k win p).val.2.2.length = k.m.length ∧ val (affineT k win p).val.2.2 < val k.m ∧
      (val (affineT k win p).val.2.2 : ZMod (val k.m)) = cy * cz ^ (val k.m - 2)) := by
  have hinv := isMont_inverse h hwin hone hp.z
  refine ⟨?_, frommontT_spec h (isMont_mmT h hp.x hinv), frommontT_spec h (isMont_mmT h hp.y hinv)⟩
  have hzero : (affineT k win p).val.1 = isZeroN p.z := rfl
  rw [hzero, isZeroN_eq h.width]
  exact decide_eq_decide.mpr (hp.z.eq_zero_iff h.odd).symm

theorem affineT_trace (win : Nat) (p : Point w) : (affineT k win p).trace =
      [.lzero p.z.length, .lsub k.m.length] ++
        (modexpT k win p.z (val (subN k.m (limbsOf w k.m.length 2)).1) (w * k.m.length)).trace ++
        List.replicate 4 (.mmul k.m.length) := by
  simp [affineT, frommontT]

end

end Sys2Proof.Machine
end

section
/-! SUPPORT. The unit operations a command performs, in a state that meets the invariant (70_reset_and_hazards.md R290,
R292). -/

namespace Sys2Proof.Machine

theorem passes_iff (s : State) (i : Instr) :
    Passes s i ↔ (∀ c ∈ tagChecks s i, c.ok = true) ∧ (∀ c ∈ valueChecks s i, c.ok = true) := by
  rw [Passes, firstFailing_eq_none, firstFailing_eq_none]

theorem isMont_iff (s : State) (i : VIdx) (k : CIdx) :
    isMont s i k = true ↔ (s.reg i).form = .mont ∧ (s.reg i).ctx = k := by
  simp [isMont]

theorem curveLoaded_iff (s : State) (k : CIdx) :
    curveLoaded s k = true ↔ (s.slot k).cvalid = true ∧ (s.slot k).kvalid = true := by
  simp [curveLoaded]

theorem hasLen_iff (s : State) (i : VIdx) (n : Nat) : hasLen s i n = true ↔ (s.reg i).len = n := beq_iff_eq

theorem blindBytes_eq (p : Params) : blindBytes p = p.blindBits / 8 := rfl

section
variable {s : State} (h : BlockOk s) {k : CIdx}
include h

theorem BlockOk.len_of_isMont {i : VIdx} (hi : isMont s i k = true) : (s.reg i).len = (s.slot k).clen := by
  obtain ⟨hform, hctx⟩ := (isMont_iff s i k).mp hi
  exact h.len_of_tag (by simp [hform]) hctx

theorem BlockOk.len_z {b : VIdx} (ht : TripleOf s b k) : (s.reg (b + 2)).len = (s.slot k).clen :=
  (length_limbs s _).symm.trans (ht.hasLength h).z

/-- An exponentiation of a register of the slot. -/
theorem BlockOk.modexpT_trace {i : VIdx} (hlen : (s.reg i).len = (s.slot k).clen) (e nb : Nat) :
    (modexpT (s.ctx k) s.params.win (s.limbs i) e nb).trace = mxTrace (s.slot k).clen s.params.win nb := by
  rw [modexpT_trace_eq_mxTrace (one_le_win h.params) (by simp [hlen]) (by simp), length_ctx_m]

theorem BlockOk.multipleOf_trace {ra : VIdx} (ht : TripleOf s ra k) (rb : VIdx) :
    (multipleOf s ra rb k).trace = (List.replicate (s.params.w * (s.slot k).ordlen)
      [.padd (s.slot k).clen, .padd (s.slot k).clen, .lsel (s.slot k).clen, .lsel (s.slot k).clen,
        .lsel (s.slot k).clen]).flatten := by
  rw [multipleOf, scalarMultT, ladder_trace (by simp) (by simp) (by simpa using ht.hasLength h)
    _ _ ⟨length_limbsOf .., by simp [infinity], length_limbsOf ..⟩, length_ctx_m]

end

/-- A command all of whose checks hold performs the operations of its row. -/
theorem work_eq_successTrace {s : State} (h : BlockOk s) {i : Instr} (hp : Passes s i) :
    work s i = successTrace s i := by
  obtain ⟨htag, -⟩ := (passes_iff s i).mp hp
  cases i with
  | ctxload ra k => rw [work, mkctx_trace, length_limbs, successTrace]
  | tomont rd ra k =>
    simp only [tagChecks, List.forall_mem_cons, hasLen_iff] at htag
    obtain ⟨-, -, -, hlen, -⟩ := htag
    simp [work, successTrace, tomontT, hlen]
  | montmul | montsqr | frommont => simp [work, successTrace, frommontT]
  | modexp rd ra rb k =>
    simp only [tagChecks, List.forall_mem_cons, Bool.and_eq_true] at htag
    obtain ⟨-, -, ⟨hmont, -⟩, -⟩ := htag
    exact h.modexpT_trace (h.len_of_isMont hmont) ..
  | modexpb rd ra rb rc k =>
    simp only [tagChecks, List.forall_mem_cons, Bool.and_eq_true] at htag
    obtain ⟨-, -, ⟨⟨hmont, -⟩, -⟩, -⟩ := htag
    rw [work, blindPowOf, h.modexpT_trace (h.len_of_isMont hmont)]
    rfl
  | crvload ra rb rc k =>
    simp only [tagChecks, List.forall_mem_cons, Bool.and_eq_true, hasLen_iff] at htag
    obtain ⟨-, -, -, ⟨ha, hb⟩, -⟩ := htag
    rw [work, rangeOf, rangeT_trace, constOf, curveConstT_trace (by simp [hb])]
    simp [successTrace, ha, hb]
  | ptload rd ra rb k =>
    simp only [tagChecks, List.forall_mem_cons, Bool.and_eq_true, hasLen_iff] at htag
    obtain ⟨-, -, -, -, ⟨ha, hb⟩, -⟩ := htag
    rw [work, rangeOf, rangeT_trace, curveOf, oncurveT_trace (by simp [ha]) (by simp [hb]) (by simp) (by simp)]
    simp [successTrace, ha, hb]
  | ptadd | ptdbl => simp [work, successTrace, sumOf]
  | ptaff rd ra rb k =>
    simp only [tagChecks, List.forall_mem_cons, tripleTagged_iff] at htag
    obtain ⟨-, -, -, -, htriple, -⟩ := htag
    rw [work, affineOf, affineT_trace, State.point, h.modexpT_trace (h.len_z htriple), length_ctx_m, length_limbs,
      h.len_z htriple]
    rfl
  | scmul rd ra rb k noinf =>
    simp only [tagChecks, List.forall_mem_cons, Bool.and_eq_true, tripleTagged_iff, hasLen_iff] at htag
    obtain ⟨-, -, -, ⟨htriple, -⟩, hlen, -⟩ := htag
    rw [work, h.multipleOf_trace htriple, cmpT_trace, isZeroT_trace, length_limbs, length_limbs, hlen, h.len_z htriple]
    rfl
  | _ => simp [work, successTrace]

/-- Before a check on values that fails, a command has performed the operations R292 names. -/
theorem valueChecks_work {s : State} (h : BlockOk s) {i : Instr} (htag : ∀ c ∈ tagChecks s i, c.ok = true) {c : Check}
    (hc : c ∈ valueChecks s i) : c.work = errorTrace s i c.code := by
  revert c
  cases i with
  | ctxload ra k => simp [valueChecks, errorTrace]
  | tomont rd ra k =>
    simp only [tagChecks, List.forall_mem_cons, hasLen_iff] at htag
    obtain ⟨-, -, -, hlen, -⟩ := htag
    simp [valueChecks, errorTrace, hlen]
  | modexpb rd ra rb rc k => simp [valueChecks, errorTrace, blindBytes_eq]
  | crvload ra rb rc k =>
    simp only [tagChecks, List.forall_mem_cons, Bool.and_eq_true, hasLen_iff] at htag
    obtain ⟨-, -, -, ⟨ha, hb⟩, -⟩ := htag
    simp [valueChecks, errorTrace, rangeOf, rangeT_trace, ha, hb]
  | ptload rd ra rb k =>
    simp only [tagChecks, List.forall_mem_cons, Bool.and_eq_true, hasLen_iff] at htag
    obtain ⟨-, -, -, -, ⟨ha, hb⟩, -⟩ := htag
    simp only [valueChecks, List.forall_mem_cons, errorTrace, rangeOf, rangeT_trace, curveOf]
    rw [oncurveT_trace (by simp [ha]) (by simp [hb]) (by simp) (by simp)]
    simp [successTrace, ha, hb]
  | scmul rd ra rb k noinf =>
    simp only [tagChecks, List.forall_mem_cons, Bool.and_eq_true, tripleTagged_iff, hasLen_iff] at htag
    obtain ⟨-, -, -, ⟨htriple, -⟩, hlen, -⟩ := htag
    simp [valueChecks, errorTrace, hlen, h.len_z htriple]
  | _ => simp [valueChecks]

/-- The codes of steps 1 to 6 come before any work. -/
theorem errorTrace_of_tagCode (s : State) (i : Instr) {e : ErrCode} (he : e ∈ tagCodes) : errorTrace s i e = [] := by
  simp only [tagCodes, List.mem_cons, List.not_mem_nil, or_false] at he
  rcases he with rfl | rfl | rfl | rfl | rfl | rfl | rfl <;> rfl

end Sys2Proof.Machine
end

section
/-! The statements: the trace of every command, ended well or with any code. -/

namespace Sys2Proof.Machine

/-- Settles O60: a command that ends well performs the work of its row, one that ends with a code the work recorded at
the check that failed. -/
theorem tracesOfAllCommands : Obligations.TracesOfAllCommands := by
  intro i s t hinv hs hexec
  have h := hinv.block
  refine ⟨fun ht => ?_, fun e he => ?_⟩
  · obtain ⟨hp, rfl⟩ := exec_success hexec ht
    exact work_eq_successTrace h hp
  · obtain ⟨c, rfl, ⟨hc, rfl⟩ | ⟨htag, hc, rfl⟩⟩ := exec_error hs hexec he
    · exact (errorTrace_of_tagCode s i (tagChecks_codes (mem_of_firstFailing hc)).1).symm
    · exact valueChecks_work h (firstFailing_eq_none.mp htag) (mem_of_firstFailing hc)

end Sys2Proof.Machine
end

section
/-! SUPPORT. Two runs side by side: where the operands of two states have the same lengths, a command's unit operations
are the same in both, whatever the values (70_reset_and_hazards.md R289). The two states need not meet the invariant. -/

namespace Sys2Proof.Machine

/-- Two vectors, perhaps of limbs of different widths, have one length. -/
def SameLength {w w' : Nat} (a : Limbs w) (b : Limbs w') : Prop := a.length = b.length

section
variable {w w' : Nat}

theorem SameLength.selectN {a b : Limbs w} {a' b' : Limbs w'} (ha : SameLength a a') (hb : SameLength b b')
    (f f' : Bool) :
    SameLength (selectN f a b) (selectN f' a' b') := by
  rw [SameLength, length_selectN, length_selectN, ha, hb]

theorem SameLength.montLoop {m a b : Limbs w} {m' a' b' : Limbs w'} (hm : SameLength m m') (ha : SameLength a a')
    (hb : SameLength b b') (n0 : BitVec w) (n0' : BitVec w') {t : MontAcc w} {t' : MontAcc w'}
    (ht : SameLength t.lo t'.lo) : SameLength (montLoop m n0 a b t).lo (montLoop m' n0' a' b' t').lo := by
  induction b generalizing b' t t' with
  | nil =>
    obtain rfl := List.length_eq_zero_iff.mp hb.symm
    exact ht
  | cons x xs ih =>
    obtain ⟨y, ys, rfl⟩ := List.exists_cons_of_length_eq_add_one hb.symm
    refine ih (Nat.succ.inj hb) ?_
    rw [SameLength, length_montStep, length_montStep, ht, ha, hm]

theorem SameLength.montmul {m a b : Limbs w} {m' a' b' : Limbs w'} (hm : SameLength m m') (ha : SameLength a a')
    (hb : SameLength b b') (n0 : BitVec w) (n0' : BitVec w') :
    SameLength (montmul m n0 a b) (montmul m' n0' a' b') := by
  have hlo := hm.montLoop ha hb n0 n0' (t := { lo := List.replicate m.length 0, hi := 0 })
    (t' := { lo := List.replicate m'.length 0, hi := 0 }) (by simpa [SameLength] using hm)
  refine SameLength.selectN ?_ hlo _ _
  rw [SameLength, length_subN, length_subN, hlo, hm]

/-- The vectors of two contexts have the same lengths. -/
structure Ctx.SameLengths (k : Ctx w) (k' : Ctx w') : Prop where
  m : SameLength k.m k'.m
  one : SameLength k.one k'.one
  a : SameLength k.a k'.a
  b3 : SameLength k.b3 k'.b3

variable {k : Ctx w} {k' : Ctx w'} (hk : k.SameLengths k')
include hk

/-! The exponentiation engine. -/

theorem Ctx.SameLengths.map_length_powTable {base : Limbs w} {base' : Limbs w'} (hbase : SameLength base base')
    (count : Nat) {prev : Limbs w} {prev' : Limbs w'} (hprev : SameLength prev prev') :
    (powTable k base count prev).val.map List.length = (powTable k' base' count prev').val.map List.length := by
  induction count generalizing prev prev' with
  | zero => rfl
  | succ count ih => exact congrArg₂ List.cons (hk.m.montmul hprev hbase _ _) (ih (hk.m.montmul hprev hbase _ _))

theorem Ctx.SameLengths.modexpT_trace {base : Limbs w} {base' : Limbs w'} (hbase : SameLength base base')
    (win e e' nb : Nat) : (modexpT k win base e nb).trace = (modexpT k' win base' e' nb).trace := by
  have htable : (expTable k win base).map List.length = (expTable k' win base').map List.length := by
    simp only [expTable, List.map_cons, hk.map_length_powTable hbase _ hbase, show k.one.length = _ from hk.one,
      show base.length = _ from hbase]
  have hsel : (expTable k win base).map (fun t => TraceEvent.lsel t.length) =
      (expTable k' win base').map fun t => TraceEvent.lsel t.length := by
    have := congrArg (List.map TraceEvent.lsel) htable
    rwa [List.map_map, List.map_map] at this
  rw [Machine.modexpT_trace, Machine.modexpT_trace, windowTrace, windowTrace, hsel, show k.m.length = _ from hk.m]

theorem Ctx.SameLengths.affineT_trace (hw : w = w') {win win' : Nat} (hwin : win = win') {p : Point w} {p' : Point w'}
    (hz : SameLength p.z p'.z) :
    (affineT k win p).trace = (affineT k' win' p').trace := by
  subst hw hwin
  rw [Machine.affineT_trace, Machine.affineT_trace, hk.modexpT_trace hz, show k.m.length = _ from hk.m,
    show p.z.length = _ from hz]

/-! The point adder and the scalar multiplier. -/

theorem Ctx.SameLengths.limbOps : (limbOps k).Related SameLength (limbOps k') where
  mm ha hb := ⟨by rw [Machine.limbOps, Machine.limbOps, mmT_trace, mmT_trace, show k.m.length = _ from hk.m],
    hk.m.montmul ha hb _ _⟩
  add {a b a' b'} ha hb := by
    have hm := hk.m
    rw [SameLength] at ha hb hm
    constructor
    · simp [Machine.limbOps, faddT, ha, hb, hm]
    · simp [Machine.limbOps, faddT, SameLength, ha, hb, hm]
  sub {a b a' b'} ha hb := by
    have hm := hk.m
    rw [SameLength] at ha hb hm
    constructor
    · simp [Machine.limbOps, fsubT, ha, hb, hm]
    · simp [Machine.limbOps, fsubT, SameLength, ha, hb, hm]

omit hk in
/-- The coordinates of two points have the same lengths. -/
structure Point.SameLengths (p : Point w) (p' : Point w') : Prop where
  x : SameLength p.x p'.x
  y : SameLength p.y p'.y
  z : SameLength p.z p'.z

theorem Ctx.SameLengths.paddE {p q : Point w} {p' q' : Point w'} (hp : p.SameLengths p') (hq : q.SameLengths q') :
    (paddE k p q).Rel Point.SameLengths (paddE k' p' q') where
  trace_eq := by rw [paddE_trace, paddE_trace, show k.m.length = _ from hk.m]
  val_rel := by
    rw [paddE_val, paddE_val, paddT_eq_paddSeq, paddT_eq_paddSeq]
    exact (hk.limbOps.paddSeq (fun hx hy hz => ⟨hx, hy, hz⟩) hk.a hk.b3 hp.x hp.y hp.z hq.x hq.y hq.z).val_rel

theorem Ctx.SameLengths.infinity : (infinity k).SameLengths (infinity k') := by
  have hm := hk.m
  rw [SameLength] at hm
  exact ⟨by simp [SameLength, Machine.infinity, hm], hk.one, by simp [SameLength, Machine.infinity, hm]⟩

omit hk in
theorem rel_selectT {a b : Limbs w} {a' b' : Limbs w'} (ha : SameLength a a') (hb : SameLength b b') (f f' : Bool) :
    (selectT f a b).Rel SameLength (selectT f' a' b') :=
  ⟨by rw [selectT_trace, selectT_trace, ha], ha.selectN hb f f'⟩

theorem Ctx.SameLengths.ladder {p : Point w} {p' : Point w'} (hp : p.SameLengths p') (scalar scalar' i : Nat)
    {acc : Point w} {acc' : Point w'} (hacc : acc.SameLengths acc') :
    (ladder k p scalar i acc).Rel Point.SameLengths (ladder k' p' scalar' i acc') := by
  induction i generalizing acc acc' with
  | zero => exact .pure hacc
  | succ i ih =>
    refine (hk.paddE hacc hacc).bind fun _ _ dbl => (hk.paddE dbl hp).bind fun _ _ sum => ?_
    refine (rel_selectT sum.x dbl.x _ _).bind fun _ _ x => (rel_selectT sum.y dbl.y _ _).bind fun _ _ y => ?_
    exact (rel_selectT sum.z dbl.z _ _).bind fun _ _ z => ih ⟨x, y, z⟩

end

end Sys2Proof.Machine
end

section
/-! SUPPORT. Two states that agree on the public quantities of a command (70_reset_and_hazards.md R289): the same checks
on the tags fail, and the work is the same. -/

namespace Sys2Proof.Machine

section
variable {s t : State}

theorem SamePublic.params {i : Instr} (h : SamePublic i s t) : s.params = t.params := h.1

theorem SamePublic.reg {i : Instr} (h : SamePublic i s t) {r : VIdx} (hr : r ∈ sourceRegs i) :
    (s.reg r).valid = (t.reg r).valid ∧ (s.reg r).len = (t.reg r).len ∧ (s.reg r).form = (t.reg r).form ∧
    (s.reg r).ctx = (t.reg r).ctx := by
  obtain ⟨-, hregs, -⟩ := h
  simpa [tagOf] using hregs r hr

theorem SamePublic.slot {i : Instr} (h : SamePublic i s t) {k : CIdx} (hk : k ∈ usedSlot i) :
    (s.slot k).cvalid = (t.slot k).cvalid ∧ (s.slot k).kvalid = (t.slot k).kvalid ∧
    (s.slot k).clen = (t.slot k).clen ∧ (s.slot k).ordlen = (t.slot k).ordlen := by
  obtain ⟨-, -, hslots⟩ := h
  simpa [slotTagOf] using hslots k (by simpa using hk)

theorem SamePublic.len {i : Instr} (h : SamePublic i s t) {r : VIdx} (hr : r ∈ sourceRegs i) :
    (s.reg r).len = (t.reg r).len := by
  obtain ⟨-, hlen, -⟩ := h.reg hr
  exact hlen

/-- The registers whose forms a command checks are its sources, once its point operands have a base. -/
theorem mem_sourceRegs_of_neededForms {i : Instr} (hbase : ∀ b ∈ pointFields i, b.val ≤ 13) {q : VIdx × Form × CIdx}
    (hq : q ∈ neededForms i) : q.1 ∈ sourceRegs i := by
  revert q
  cases i <;> simp [neededForms, sourceRegs, pointFields, tripleRegs] at hbase ⊢ <;> simp [hbase]

theorem mem_sourceRegs_of_agreeingPair {i : Instr} {q : VIdx × VIdx} (hq : q ∈ agreeingPair i) :
    q.1 ∈ sourceRegs i ∧ q.2 ∈ sourceRegs i := by
  revert q
  cases i <;> simp [agreeingPair, sourceRegs]

theorem mem_agreeingPair_of_plainPair {i : Instr} {q : VIdx × VIdx} (hq : q ∈ plainPair i) : q ∈ agreeingPair i := by
  revert q
  cases i <;> simp [agreeingPair, plainPair]

theorem mem_sourceRegs_of_neededLens {i : Instr} {q : VIdx × Nat} (hq : q ∈ neededLens s i) : q.1 ∈ sourceRegs i := by
  revert q
  cases i <;> simp [neededLens, sourceRegs]

theorem SamePublic.neededLens {i : Instr} (h : SamePublic i s t) : neededLens s i = neededLens t i := by
  obtain ⟨-, hregs, hslots⟩ := h
  cases i
  all_goals
    simp only [sourceRegs, usedSlot, tagOf, slotTagOf] at hregs hslots
    simp_all [Machine.neededLens]

theorem list_any_congr {α : Type} {l : List α} {p q : α → Bool} (h : ∀ a ∈ l, p a = q a) : l.any p = l.any q := by
  rw [Bool.eq_iff_iff, List.any_eq_true, List.any_eq_true]
  exact exists_congr fun a => and_congr_right fun ha => by rw [h a ha]

theorem option_any_congr {α : Type} {l : Option α} {p q : α → Bool} (h : ∀ a ∈ l, p a = q a) : l.any p = l.any q := by
  cases l with
  | none => rfl
  | some a => exact h a rfl

/-- The checks on the word and the tags look at public quantities only. -/
theorem firstTagError_congr {i : Instr} (h : SamePublic i s t) : firstTagError i s = firstTagError i t := by
  have hslots : (usedSlot i).any (fun k => !(s.slot k).cvalid || (needsCurve i && !(s.slot k).kvalid)) =
      (usedSlot i).any fun k => !(t.slot k).cvalid || (needsCurve i && !(t.slot k).kvalid) :=
    option_any_congr fun k hk => by
      obtain ⟨hc, hkv, -⟩ := h.slot hk
      rw [hc, hkv]
  have hvalid : (sourceRegs i).any (fun r => !(s.reg r).valid) = (sourceRegs i).any fun r => !(t.reg r).valid :=
    list_any_congr fun r hr => by
      obtain ⟨hv, -⟩ := h.reg hr
      rw [hv]
  have hagree : (agreeingPair i).any
        (fun q => (s.reg q.1).form != (s.reg q.2).form || (s.reg q.1).ctx != (s.reg q.2).ctx) =
      (agreeingPair i).any fun q => (t.reg q.1).form != (t.reg q.2).form || (t.reg q.1).ctx != (t.reg q.2).ctx :=
    option_any_congr fun q hq => by
      obtain ⟨h1, h2⟩ := mem_sourceRegs_of_agreeingPair hq
      obtain ⟨-, -, hform1, hctx1⟩ := h.reg h1
      obtain ⟨-, -, hform2, hctx2⟩ := h.reg h2
      rw [hform1, hctx1, hform2, hctx2]
  have hplain : (plainPair i).any (fun q => (s.reg q.1).form != .std && (s.reg q.1).form != .mont) =
      (plainPair i).any fun q => (t.reg q.1).form != .std && (t.reg q.1).form != .mont :=
    option_any_congr fun q hq => by
      obtain ⟨-, -, hform, -⟩ := h.reg (mem_sourceRegs_of_agreeingPair (mem_agreeingPair_of_plainPair hq)).1
      rw [hform]
  have hlens : (neededLens s i).any (fun q => (s.reg q.1).len != q.2) =
      (neededLens t i).any fun q => (t.reg q.1).len != q.2 := by
    rw [← h.neededLens]
    exact list_any_congr fun q hq => by
      obtain ⟨-, hlen, -⟩ := h.reg (mem_sourceRegs_of_neededLens hq)
      rw [hlen]
  unfold firstTagError
  rw [hslots, hvalid, hagree, hplain, hlens]
  refine if_congr Iff.rfl rfl ?_
  cases hbase : (pointFields i).any (fun b => 13 < b.val) with
  | true => rfl
  | false =>
    have hforms : (neededForms i).any
          (fun q => (s.reg q.1).form != q.2.1 || (q.2.1 != .std && (s.reg q.1).ctx != q.2.2)) =
        (neededForms i).any fun q => (t.reg q.1).form != q.2.1 || (q.2.1 != .std && (t.reg q.1).ctx != q.2.2) :=
      list_any_congr fun q hq => by
        obtain ⟨-, -, hform, hctx⟩ := h.reg (mem_sourceRegs_of_neededForms (by simpa using hbase) hq)
        rw [hform, hctx]
    rw [hforms]

theorem sameLength_limbs {r : VIdx} (h : (s.reg r).len = (t.reg r).len) : SameLength (s.limbs r) (t.limbs r) := by
  rw [SameLength, length_limbs, length_limbs, h]

theorem sameLengths_ctx {k : CIdx} (h : (s.slot k).clen = (t.slot k).clen) : (s.ctx k).SameLengths (t.ctx k) := by
  constructor <;> simp [SameLength, h]

/-- A triple that has a base is among the registers whose tags agree. -/
theorem sameLengths_point {b : VIdx} (hb : isBase b = true)
    (h : ∀ r ∈ tripleRegs b, (s.reg r).len = (t.reg r).len) : (s.point b).SameLengths (t.point b) := by
  have hregs : tripleRegs b = [b, b + 1, b + 2] := if_pos (of_decide_eq_true hb)
  rw [hregs] at h
  exact ⟨sameLength_limbs (h b (by simp)), sameLength_limbs (h (b + 1) (by simp)),
    sameLength_limbs (h (b + 2) (by simp))⟩

/-- An exponentiation of a register. -/
theorem modexpT_trace_congr (hp : s.params = t.params) {k : CIdx} (hk : (s.slot k).clen = (t.slot k).clen) {r : VIdx}
    (hr : (s.reg r).len = (t.reg r).len) (e e' nb : Nat) :
    (modexpT (s.ctx k) s.params.win (s.limbs r) e nb).trace =
      (modexpT (t.ctx k) t.params.win (t.limbs r) e' nb).trace := by
  rw [(sameLengths_ctx hk).modexpT_trace (sameLength_limbs hr) _ e e', hp]

/-- Two states that agree on the public quantities of a command, and where its checks on the tags hold. -/
structure BothTagged (i : Instr) (s t : State) : Prop where
  same : SamePublic i s t
  left : ∀ c ∈ tagChecks s i, c.ok = true
  right : ∀ c ∈ tagChecks t i, c.ok = true

/-- The work of a command is public. -/
theorem work_congr {i : Instr} (h : BothTagged i s t) : work s i = work t i := by
  obtain ⟨hpub, hs, ht⟩ := h
  have hp := hpub.params
  have hlen {r : VIdx} (hr : r ∈ sourceRegs i) := hpub.len hr
  have hclen {k : CIdx} (hk : k ∈ usedSlot i) : (s.slot k).clen = (t.slot k).clen := by
    obtain ⟨-, -, hclen, -⟩ := hpub.slot hk
    exact hclen
  cases i with
  | nop | zeroize | ptinf => rfl
  | add rd ra rb | sub rd ra rb | cmp ra rb | iszero ra | sel rd ra rb cond | cswap ra rb cond =>
    simp [work, hlen (r := ra) (by simp [sourceRegs])]
  | ctxload ra k =>
    rw [work, work, mkctx_trace, mkctx_trace, length_limbs, length_limbs, hlen (by simp [sourceRegs]), hp]
  | tomont rd ra k => simp [work, tomontT, hlen (r := ra) (by simp [sourceRegs]), hclen (k := k) rfl]
  | montmul rd ra rb k | montsqr rd ra k | frommont rd ra k => simp [work, frommontT, hclen (k := k) rfl]
  | modexp rd ra rb k =>
    rw [work, work, powOf, powOf, modexpT_trace_congr hp (hclen rfl) (hlen (by simp [sourceRegs])),
      hlen (r := rb) (by simp [sourceRegs]), hp]
  | modexpb rd ra rb rc k =>
    rw [work, work, blindPowOf, blindPowOf]
    rw [modexpT_trace_congr hp (hclen rfl) (hlen (by simp [sourceRegs])),
      hlen (r := rb) (by simp [sourceRegs]), hlen (r := rc) (by simp [sourceRegs]), hp]
  | crvload ra rb rc k =>
    simp only [tagChecks, List.forall_mem_cons, Bool.and_eq_true, hasLen_iff] at hs ht
    obtain ⟨-, -, -, ⟨sa, sb⟩, -⟩ := hs
    obtain ⟨-, -, -, ⟨ta, tb⟩, -⟩ := ht
    simp [work, rangeOf, rangeT_trace, constOf, curveConstT_trace, sa, sb, ta, tb, hclen (k := k) rfl]
  | ptload rd ra rb k =>
    simp only [tagChecks, List.forall_mem_cons, Bool.and_eq_true, hasLen_iff] at hs ht
    obtain ⟨-, -, -, -, ⟨sa, sb⟩, -⟩ := hs
    obtain ⟨-, -, -, -, ⟨ta, tb⟩, -⟩ := ht
    simp [work, rangeOf, rangeT_trace, curveOf, oncurveT_trace, sa, sb, ta, tb, hclen (k := k) rfl]
  | ptadd rd ra rb k | ptdbl rd ra k => simp [work, sumOf, hclen (k := k) rfl]
  | ptaff rd ra rb k =>
    simp only [tagChecks, List.forall_mem_cons] at hs
    obtain ⟨hbase, -⟩ := hs
    have hpoint := sameLengths_point hbase fun r hr => hlen hr
    exact (sameLengths_ctx (hclen rfl)).affineT_trace (congrArg Params.w hp) (congrArg Params.win hp) hpoint.z
  | scmul rd ra rb k noinf =>
    simp only [tagChecks, List.forall_mem_cons, Bool.and_eq_true] at hs
    obtain ⟨⟨-, hbase⟩, -⟩ := hs
    have hpoint := sameLengths_point hbase fun r hr => hlen (List.mem_append_left _ hr)
    obtain ⟨-, -, hclen, hordlen⟩ := hpub.slot (k := k) rfl
    have hbits : s.params.w * (s.slot k).ordlen = t.params.w * (t.slot k).ordlen := by rw [hp, hordlen]
    have hctx := sameLengths_ctx hclen
    rw [work, work, multipleOf, multipleOf, scalarMultT, scalarMultT, cmpT_trace, cmpT_trace, isZeroT_trace,
      isZeroT_trace, hbits, (hctx.ladder hpoint _ (val (t.limbs rb)) _ hctx.infinity).trace_eq,
      show (s.limbs rb).length = _ from sameLength_limbs (hlen (by simp [sourceRegs])),
      show (s.limbs (ra + 2)).length = (t.limbs (ra + 2)).length from hpoint.z]

/-- Where the same check on values fails in both, the work before it is the same. -/
theorem valueChecks_work_congr {i : Instr} (h : BothTagged i s t) {c c' : Check} (hc : c ∈ valueChecks s i)
    (hc' : c' ∈ valueChecks t i) (hcode : c.code = c'.code) : c.work = c'.work := by
  have hwork := work_congr h
  obtain ⟨hpub, hs, -⟩ := h
  have hp := hpub.params
  have hlen {r : VIdx} (hr : r ∈ sourceRegs i) := hpub.len hr
  revert c c'
  cases i with
  | ctxload ra k => simp [valueChecks]
  | tomont rd ra k => simp [valueChecks, hlen (r := ra) (by simp [sourceRegs])]
  | modexpb rd ra rb rc k => simp [valueChecks, hp]
  | crvload ra rb rc k =>
    simp [valueChecks, rangeOf, rangeT_trace, hlen (r := ra) (by simp [sourceRegs]),
      hlen (r := rb) (by simp [sourceRegs])]
  | ptload rd ra rb k =>
    rw [work, work, rangeOf, rangeOf, rangeT_trace, rangeT_trace, length_limbs, length_limbs, length_limbs,
      length_limbs, hlen (r := ra) (by simp [sourceRegs]), hlen (r := rb) (by simp [sourceRegs])] at hwork
    simp only [valueChecks, rangeOf, rangeT_trace, length_limbs, hlen (r := ra) (by simp [sourceRegs]),
      hlen (r := rb) (by simp [sourceRegs]), List.mem_cons, List.not_mem_nil, or_false]
    rintro c c' (rfl | rfl) (rfl | rfl) hcode
    · rfl
    · cases hcode
    · cases hcode
    · exact hwork
  | scmul rd ra rb k noinf =>
    simp only [tagChecks, List.forall_mem_cons, Bool.and_eq_true] at hs
    obtain ⟨⟨-, hbase⟩, -⟩ := hs
    have hpoint := sameLengths_point hbase fun r hr => hlen (List.mem_append_left _ hr)
    have hz : (s.limbs (ra + 2)).length = (t.limbs (ra + 2)).length := hpoint.z
    simp only [valueChecks, cmpT_trace, isZeroT_trace, hz, length_limbs, hlen (r := rb) (by simp [sourceRegs]),
      List.mem_cons, List.not_mem_nil, or_false]
    rintro c c' (rfl | rfl) (rfl | rfl) hcode
    · rfl
    · cases hcode
    · cases hcode
    · rfl
  | _ => simp [valueChecks]

end

end Sys2Proof.Machine
end

section
/-! The statements: the constant-time rule (70_reset_and_hazards.md R289). -/

namespace Sys2Proof.Machine

/-- A command ends with a code of steps 1 to 6 exactly where the checks on the tags say so. -/
theorem err_eq_tagCode_iff {i : Instr} {s s' : State} (hs : s.err = none) (h : exec i s = .next s') {e : ErrCode}
    (he : e ∈ tagCodes) : s'.err = some e ↔ firstTagError i s = some e := by
  obtain ⟨hfirst, hnone⟩ := tagChecksInOrder i s s' hs h
  refine ⟨fun herr => ?_, hfirst e⟩
  cases htag : firstTagError i s with
  | none => exact absurd he (hnone htag e herr)
  | some e' => exact (hfirst e' htag).symm.trans herr

/-- Settles O59: tag checks look at public quantities only; past them the same failing check leaves the same work, and
so does success, for vectors of the same lengths. -/
theorem constantTimeTrace : Obligations.ConstantTimeTrace := by
  intro i s t s' t' hpub hs ht hexec hexec'
  have htags (e : ErrCode) (he : e ∈ tagCodes) : s'.err = some e ↔ t'.err = some e := by
    rw [err_eq_tagCode_iff hs hexec he, err_eq_tagCode_iff ht hexec' he, firstTagError_congr hpub]
  refine ⟨fun herr => ?_, htags⟩
  cases hs' : s'.err with
  | none =>
    obtain ⟨hp, rfl⟩ := exec_success hexec hs'
    obtain ⟨hp', rfl⟩ := exec_success hexec' (herr.symm.trans hs')
    exact work_congr ⟨hpub, firstFailing_eq_none.mp hp.1, firstFailing_eq_none.mp hp'.1⟩
  | some e =>
    obtain ⟨c, hc, hcase⟩ := exec_error hs hexec hs'
    obtain ⟨c', hc', hcase'⟩ := exec_error ht hexec' (herr.symm.trans hs')
    rcases hcase with ⟨hfail, rfl⟩ | ⟨htag, hfail, rfl⟩ <;> rcases hcase' with ⟨hfail', rfl⟩ | ⟨htag', hfail', rfl⟩
    · rfl
    · have hmem := (tagChecks_codes (mem_of_firstFailing hfail)).1
      exact absurd (hc.trans hc'.symm ▸ hmem) (valueChecks_codes (mem_of_firstFailing hfail')).1
    · have hmem := (tagChecks_codes (mem_of_firstFailing hfail')).1
      exact absurd (hc'.trans hc.symm ▸ hmem) (valueChecks_codes (mem_of_firstFailing hfail)).1
    · exact valueChecks_work_congr ⟨hpub, firstFailing_eq_none.mp htag, firstFailing_eq_none.mp htag'⟩
        (mem_of_firstFailing hfail) (mem_of_firstFailing hfail') (hc.trans hc'.symm)

end Sys2Proof.Machine
end

section
/-! SUPPORT. What keeps the invariant of registers and slots: one lemma per update of the state, then every command's
effect (10_state.md R24, R33). -/

namespace Sys2Proof.Machine

/-! Updates. -/

section
variable {s : State}

/-- The invariant speaks of the configuration, the registers and the slots only. -/
theorem BlockOk.congr {t : State} (h : BlockOk s) (hp : t.params = s.params) (hv : t.v = s.v) (hc : t.c = s.c) :
    BlockOk t where
  params := hp ▸ h.params
  regs i := by
    have hslot (k : CIdx) : t.slot k = s.slot k := by rw [State.slot, hc, State.slot]
    have hreg : t.reg i = s.reg i := by rw [State.reg, hv, State.reg]
    simp only [RegOk, hreg, hslot, hp]
    exact h.regs i
  slots k := by
    rw [State.slot, hc, hp]
    exact h.slots k

theorem BlockOk.setInf (h : BlockOk s) (b : Bool) : BlockOk (setInf s b) := h.congr rfl rfl rfl

theorem BlockOk.setReg (h : BlockOk s) {r : VReg} (hr : RegOk s r) (i : VIdx) : BlockOk (s.setReg i r) where
  params := h.params
  regs j := by
    rw [reg_setReg]
    split_ifs
    · exact hr
    · exact h.regs j
  slots := h.slots

/-- A slot is written: the registers left keep their slots' constants in place. -/
theorem BlockOk.clearWhere_setSlot (h : BlockOk s) (p : VReg → Bool) {k : CIdx} {x : Slot} (hx : SlotOk s.params x)
    (hregs : ∀ i, p (s.reg i) = false → RegOk (s.setSlot k x) (s.reg i)) : BlockOk ((s.clearWhere p).setSlot k x) where
  params := h.params
  regs i := by
    rw [reg_setSlot, reg_clearWhere]
    split_ifs with hi
    · exact regOk_cleared _
    · exact hregs i (Bool.eq_false_iff.mpr hi)
  slots j := by
    rw [slot_setSlot]
    split_ifs
    · exact hx
    · exact h.slots j

/-- A register that a reload of the slot does not destroy does not depend on the slot. -/
theorem BlockOk.regOk_setSlot_of_not_tagged (h : BlockOk s) {k : CIdx} {x : Slot} {i : VIdx}
    (hi : taggedWith k (s.reg i) = false) : RegOk (s.setSlot k x) (s.reg i) := by
  obtain ⟨hcleared, hvalid, hstd, htagged, hcurve⟩ := h.regs i
  by_cases hform : (s.reg i).form = .std
  · exact ⟨hcleared, hvalid, hstd, fun hne => absurd hform hne, fun hp => absurd hp (by simp [hform])⟩
  · have hv : (s.reg i).valid = true := by
      by_contra hv
      exact hform (by rw [hcleared (by simpa using hv), VReg.cleared])
    have hctx : (s.reg i).ctx ≠ k := fun hctx => by simp [taggedWith, hv, hform, hctx] at hi
    rw [RegOk, slot_setSlot_ne s x hctx]
    exact h.regs i

/-- A slot's curve may be written over: registers depend on the modulus and on there being a curve. -/
theorem BlockOk.regOk_setSlot_of_same (h : BlockOk s) {k : CIdx} {x : Slot} {i : VIdx}
    (hx : x.cvalid = (s.slot k).cvalid ∧ x.clen = (s.slot k).clen ∧ x.m = (s.slot k).m) (hcurve : x.kvalid = true) :
    RegOk (s.setSlot k x) (s.reg i) := by
  by_cases hctx : (s.reg i).ctx = k
  · obtain ⟨hcleared, hvalid, hstd, htagged, -⟩ := h.regs i
    obtain ⟨hc, hlen, hm⟩ := hx
    rw [hctx, ← hc, ← hlen, ← hm] at htagged
    rw [RegOk, hctx, slot_setSlot_self]
    exact ⟨hcleared, hvalid, hctx ▸ hstd, htagged, fun _ => hcurve⟩
  · rw [RegOk, slot_setSlot_ne s x hctx]
    exact h.regs i

theorem BlockOk.zeroizeAll (h : BlockOk s) : BlockOk s.zeroizeAll :=
  ⟨h.params, fun i => reg_zeroizeAll s i ▸ regOk_cleared _, fun k => slot_zeroizeAll s k ▸ slotOk_empty _⟩

theorem BlockOk.resetBlock (h : BlockOk s) : BlockOk s.resetBlock :=
  ⟨h.params, fun i => reg_reset i ▸ regOk_cleared _, fun k => slot_reset k ▸ slotOk_empty _⟩

/-! Registers as commands write them. -/

/-- A STD register of legal length. -/
theorem BlockOk.regOk_std (h : BlockOk s) {a : Limbs s.params.w} (hpos : 1 ≤ a.length)
    (hle : a.length ≤ lmax s.params) : RegOk s (mkReg .std 0 a) := by
  refine ⟨fun hv => absurd hv (by simp [mkReg]), fun _ => ⟨hpos, hle, ?_⟩, fun _ => rfl, fun hf => absurd rfl hf,
    fun hf => absurd hf (by simp)⟩
  exact (toNat_packed h.params hle).trans_lt (val_lt a)

/-- A canonical value of a loaded slot. -/
theorem BlockOk.regOk_slot (h : BlockOk s) {k : CIdx} (hk : (s.slot k).cvalid = true) {a : Limbs s.params.w}
    (ha : a.length = (s.slot k).clen) (hlt : val a < (s.slot k).m.toNat) {form : Form} (hform : form ≠ .std)
    (hcurve : form = .px ∨ form = .py ∨ form = .pz → (s.slot k).kvalid = true) : RegOk s (mkReg form k a) := by
  have hload := h.slotLoaded hk
  have hdata : (mkReg form k a).data.toNat = val a := toNat_packed h.params (ha ▸ hload.len_le)
  refine ⟨fun hv => absurd hv (by simp [mkReg]), fun _ => ⟨?_, ?_, ?_⟩, fun hf => absurd hf hform,
    fun _ => ⟨hk, ha, hdata.trans_lt hlt⟩, hcurve⟩
  · exact hload.len_pos.trans_eq ha.symm
  · exact ha.trans_le hload.len_le
  · exact hdata.trans_lt (val_lt a)

theorem BlockOk.regOk_isMont (h : BlockOk s) {k : CIdx} (hk : (s.slot k).cvalid = true) {a : Limbs s.params.w}
    {x : ZMod (val (s.ctx k).m)} (ha : IsMont (s.ctx k).m a x) {form : Form} (hform : form ≠ .std)
    (hcurve : form = .px ∨ form = .py ∨ form = .pz → (s.slot k).kvalid = true) : RegOk s (mkReg form k a) :=
  h.regOk_slot hk (ha.length_eq.trans (length_ctx_m s k)) ((h.slotLoaded hk).val_m ▸ ha.lt) hform hcurve

theorem BlockOk.write_std (h : BlockOk s) {a : Limbs s.params.w} (hpos : 1 ≤ a.length) (hle : a.length ≤ lmax s.params)
    (i : VIdx) : BlockOk (s.write i .std 0 a) := h.setReg (h.regOk_std hpos hle) i

theorem BlockOk.write_mont (h : BlockOk s) {k : CIdx} (hk : (s.slot k).cvalid = true) {a : Limbs s.params.w}
    {x : ZMod (val (s.ctx k).m)} (ha : IsMont (s.ctx k).m a x) (i : VIdx) : BlockOk (s.write i .mont k a) :=
  h.setReg (h.regOk_isMont hk ha (by simp) (by simp)) i

theorem BlockOk.writePoint (h : BlockOk s) {k : CIdx} (hk : curveLoaded s k = true) {p : Point s.params.w}
    {c : ZMod (val (s.ctx k).m) × ZMod (val (s.ctx k).m) × ZMod (val (s.ctx k).m)} (hp : IsMontPoint (s.ctx k).m p c)
    (b : VIdx) : BlockOk (s.writePoint b k p) := by
  obtain ⟨hc, hcurve⟩ := (curveLoaded_iff s k).mp hk
  have hx : RegOk s (mkReg .px k p.x) := h.regOk_isMont hc hp.x (by simp) fun _ => hcurve
  have hy : RegOk s (mkReg .py k p.y) := h.regOk_isMont hc hp.y (by simp) fun _ => hcurve
  have hz : RegOk s (mkReg .pz k p.z) := h.regOk_isMont hc hp.z (by simp) fun _ => hcurve
  exact ((h.setReg hx b).setReg hy (b + 1)).setReg hz (b + 2)

/-- A valid register is what its tag and its vector write. -/
theorem mkReg_limbs (h : BlockOk s) {i : VIdx} (hv : (s.reg i).valid = true) :
    mkReg (s.reg i).form (s.reg i).ctx (s.limbs i) = s.reg i := by
  rw [mkReg, length_limbs, h.val_limbs, BitVec.ofNat_toNat, BitVec.setWidth_eq, ← hv]

/-! Slots as commands write them. -/

/-- The slot that CTXLOAD makes (R157). -/
theorem slotOk_loadedSlot (hp : LegalParams s.params) {m : Limbs s.params.w} (hodd : val m % 2 = 1)
    (hle : m.length ≤ lmax s.params) : SlotOk s.params (loadedSlot m.length (mkctx m).val) := by
  have hw := one_le_width hp
  have hn0 := n0Ok_n0inv hw hodd
  obtain ⟨⟨hm, hn⟩, ⟨honeLen, hone⟩, hrrLen, hrr⟩ := mkctx_spec hw hodd
  have hmVal : (packed (mkctx m).val.m).toNat = val m := by rw [hm, toNat_packed hp hle]
  have honeVal : (packed (mkctx m).val.one).toNat = 2 ^ (s.params.w * m.length) % val m := by
    rw [toNat_packed hp (honeLen ▸ hle), hone]
  have hrrVal : (packed (mkctx m).val.rr).toNat = (2 ^ (s.params.w * m.length)) ^ 2 % val m := by
    rw [toNat_packed hp (hrrLen ▸ hle), hrr]
  have hn0Val : (BitVec.ofNat 64 (mkctx m).val.n0.toNat).toNat = (n0inv (m.headD 0)).toNat := by
    have hw64 : s.params.w ≤ 64 := by
      obtain ⟨hw, -⟩ := hp
      omega
    rw [hn, BitVec.toNat_ofNat, Nat.mod_eq_of_lt ((BitVec.isLt _).trans_le (Nat.pow_le_pow_right Nat.two_pos hw64))]
  refine ⟨fun hc => absurd hc (by simp [loadedSlot]),
    fun _ => ⟨⟨List.length_pos_iff.mpr hn0.ne_nil, hle⟩, ?_, ?_, ?_, ?_⟩,
    fun _ => ⟨rfl, rfl, rfl, rfl, rfl⟩, fun hk => absurd hk (by simp [loadedSlot, Slot.empty])⟩
  · exact ⟨hmVal.symm ▸ hodd, hmVal.trans_lt (val_lt m)⟩
  · exact honeVal.trans (congrArg _ hmVal.symm)
  · exact hrrVal.trans (congrArg _ hmVal.symm)
  · simp only [loadedSlot]
    rw [hmVal, hn0Val]
    exact ⟨BitVec.isLt _, hn0.inverse⟩

/-- A loaded slot with the curve that CRVLOAD writes (R206). -/
theorem slotOk_curve (hp : LegalParams s.params) {k : CIdx} (hslot : SlotOk s.params (s.slot k))
    (hk : (s.slot k).cvalid = true) (hload : SlotLoaded s.params (s.slot k)) {a b b3 order : Limbs s.params.w}
    {x y : ZMod (val (s.ctx k).m)}
    (ha : IsMont (s.ctx k).m a x) (hb : IsMont (s.ctx k).m b y) (hb3 : IsMont (s.ctx k).m b3 (3 * y))
    (hpos : 1 ≤ order.length) (hle : order.length ≤ lmax s.params) : SlotOk s.params { s.slot k with
      kvalid := true, a := packed a, b := packed b, b3 := packed b3, ord := packed order, ordlen := order.length } := by
  obtain ⟨-, hloaded, -⟩ := hslot
  have hval {c : Limbs s.params.w} {z : ZMod (val (s.ctx k).m)} (hc : IsMont (s.ctx k).m c z) :
      (packed c).toNat = val c :=
    toNat_packed hp (by rw [hc.length_eq, length_ctx_m]; exact hload.len_le)
  have hm := hload.val_m
  refine ⟨fun hc => absurd (hk.symm.trans hc) (by simp), fun _ => hloaded hk, fun h => absurd h (by simp),
    fun _ => ⟨hk, ⟨?_, ?_, ?_⟩, ⟨hpos, hle⟩, (toNat_packed hp hle).trans_lt (val_lt order)⟩⟩
  · exact (hval ha).trans_lt (hm ▸ ha.lt)
  · exact (hval hb).trans_lt (hm ▸ hb.lt)
  · simp only []
    rw [hval hb, hval hb3, ← hm, ← Nat.mod_eq_of_lt hb3.lt, ← Nat.ModEq, ← ZMod.natCast_eq_natCast_iff, hb3.cast_eq,
      Nat.cast_mul, hb.cast_eq, Nat.cast_ofNat, mul_assoc]

/-! Operands and results of the exponentiation engine. -/

/-- The first limb's low bit is the value's. -/
theorem headD_getLsbD_zero {w : Nat} (hw : 1 ≤ w) (a : Limbs w) : (a.headD 0).getLsbD 0 = decide (val a % 2 = 1) := by
  cases a with
  | nil => simp
  | cons x xs =>
    have heven : 2 ^ w * val xs % 2 = 0 := by
      rw [Nat.mul_mod, Nat.pow_mod, Nat.mod_self, Nat.zero_pow (by omega), Nat.zero_mod, Nat.zero_mul, Nat.zero_mod]
    rw [List.headD_cons, ← BitVec.testBit_toNat, Nat.testBit_zero, val_cons, Nat.add_mod, heven, Nat.add_zero,
      Nat.mod_mod]

theorem blindFactor_lt (n : Nat) (bytes : List Byte) : blindFactor n bytes < 256 ^ n := by
  induction n generalizing bytes with
  | zero => simp [blindFactor]
  | succ n ih =>
    cases bytes with
    | nil => simp [blindFactor]
    | cons b bs =>
      have hb : b.toNat < 256 := b.isLt
      have hrest := ih bs
      rw [blindFactor, Nat.pow_succ]
      omega

/-- The blinded exponent fits its `L2` limbs (43_modexp_engine.md R174). -/
theorem blindExponent_lt {p : Params} (hp : LegalParams p) (e l : Limbs p.w) (bytes : List Byte) :
    val e + blindFactor (blindBytes p) bytes * val l <
      2 ^ (p.w * blindLimbs e.length l.length (klimbs p)) := by
  have hw := one_le_width hp
  have hbits : 8 * blindBytes p ≤ p.w * klimbs p := by
    have hblind := Nat.div_add_mod (p.blindBits + p.w - 1) p.w
    have := Nat.mod_lt (p.blindBits + p.w - 1) hw
    rw [blindBytes, klimbs]
    omega
  have hfactor : blindFactor (blindBytes p) bytes < 2 ^ (p.w * klimbs p) := by
    refine (blindFactor_lt _ _).trans_le ?_
    rw [show 256 = 2 ^ 8 from rfl, ← Nat.pow_mul]
    exact Nat.pow_le_pow_right Nat.two_pos hbits
  have hproduct : blindFactor (blindBytes p) bytes * val l < 2 ^ (p.w * (l.length + klimbs p)) := by
    rw [Nat.mul_add, Nat.add_comm, Nat.pow_add]
    exact Nat.mul_lt_mul'' hfactor (val_lt l)
  have hmax {n : Nat} (hn : n ≤ max e.length (l.length + klimbs p)) :
      2 ^ (p.w * n) ≤ 2 ^ (p.w * max e.length (l.length + klimbs p)) :=
    Nat.pow_le_pow_right Nat.two_pos (Nat.mul_le_mul_left _ hn)
  have he := (val_lt e).trans_le (hmax (Nat.le_max_left ..))
  have hl := hproduct.trans_le (hmax (Nat.le_max_right ..))
  rw [blindLimbs, Nat.mul_add, Nat.mul_one, Nat.pow_add]
  have := Nat.mul_le_mul_left (2 ^ (p.w * max e.length (l.length + klimbs p))) (two_le_two_pow hw)
  omega

theorem BlockOk.isMont_powOf (h : BlockOk s) {k : CIdx} (hk : (s.slot k).cvalid = true) {ra : VIdx}
    {x : ZMod (val (s.ctx k).m)} (hx : IsMont (s.ctx k).m (s.limbs ra) x) (rb : VIdx) :
    IsMont (s.ctx k).m (powOf s ra rb k).val (x ^ val (s.limbs rb)) := by
  have hload := h.slotLoaded hk
  exact isMont_modexpT (hload.ctxOk h.params) (one_le_win h.params) (length_limbs s rb ▸ val_lt (s.limbs rb))
    hload.isMont_one hx

theorem BlockOk.isMont_blindPowOf (h : BlockOk s) {k : CIdx} (hk : (s.slot k).cvalid = true) {ra : VIdx}
    {x : ZMod (val (s.ctx k).m)} (hx : IsMont (s.ctx k).m (s.limbs ra) x) (rb rc : VIdx) :
    IsMont (s.ctx k).m (blindPowOf s ra rb rc k).val (x ^ (val (s.limbs rb) +
      blindFactor (blindBytes s.params) ((deliveredBytes s.drawRng.1).getD []) * val (s.limbs rc))) := by
  have hload := h.slotLoaded hk
  have hlt := blindExponent_lt h.params (s.limbs rb) (s.limbs rc) ((deliveredBytes s.drawRng.1).getD [])
  rw [length_limbs, length_limbs] at hlt
  exact isMont_modexpT (hload.ctxOk h.params) (one_le_win h.params) hlt hload.isMont_one hx

/-! The slot of a curve. -/

/-- What a loaded curve is for the point units: the multiplier, and the constants' Montgomery forms. -/
theorem BlockOk.curve (h : BlockOk s) {k : CIdx} (hk : curveLoaded s k = true) :
    SlotLoaded s.params (s.slot k) ∧ SlotCurve s.params (s.slot k) := by
  obtain ⟨hc, hcurve⟩ := (curveLoaded_iff s k).mp hk
  exact ⟨h.slotLoaded hc, h.slotCurve hcurve⟩

theorem BlockOk.exists_curve (h : BlockOk s) {k : CIdx} (hk : curveLoaded s k = true) :
    ∃ a b, IsMont (s.ctx k).m (s.ctx k).a a ∧ IsMont (s.ctx k).m (s.ctx k).b b := by
  obtain ⟨hload, hcurve⟩ := h.curve hk
  exact hcurve.exists_isMont hload

theorem BlockOk.exists_isMont_of_isMont (h : BlockOk s) {i : VIdx} {k : CIdx} (hi : Machine.isMont s i k = true) :
    ∃ x, IsMont (s.ctx k).m (s.limbs i) x := by
  obtain ⟨hform, hctx⟩ := (isMont_iff s i k).mp hi
  exact h.exists_isMont (by simp [hform]) hctx

theorem BlockOk.isMontPoint_sumOf (h : BlockOk s) {k : CIdx} (hk : curveLoaded s k = true)
    {a b : ZMod (val (s.ctx k).m)} (ha : IsMont (s.ctx k).m (s.ctx k).a a) (hb : IsMont (s.ctx k).m (s.ctx k).b b)
    {ra rb : VIdx} {c d : ZMod (val (s.ctx k).m) × ZMod (val (s.ctx k).m) × ZMod (val (s.ctx k).m)}
    (hp : IsMontPoint (s.ctx k).m (s.point ra) c) (hq : IsMontPoint (s.ctx k).m (s.point rb) d) :
    IsMontPoint (s.ctx k).m (sumOf s ra rb k).val (addFormula a (3 * b) c d) := by
  obtain ⟨hload, hcurve⟩ := h.curve hk
  rw [sumOf, paddE_val]
  exact isMontPoint_paddT (hload.ctxOk h.params) ha (hcurve.isMont_b3 hload hb) hp hq

theorem BlockOk.isMontPoint_multipleOf (h : BlockOk s) {k : CIdx} (hk : curveLoaded s k = true)
    {a b : ZMod (val (s.ctx k).m)} (ha : IsMont (s.ctx k).m (s.ctx k).a a) (hb : IsMont (s.ctx k).m (s.ctx k).b b)
    {ra : VIdx} {c : ZMod (val (s.ctx k).m) × ZMod (val (s.ctx k).m) × ZMod (val (s.ctx k).m)}
    (hp : IsMontPoint (s.ctx k).m (s.point ra) c) (rb : VIdx) :
    IsMontPoint (s.ctx k).m (multipleOf s ra rb k).val (ladderFormula a (3 * b) c (val (s.limbs rb))
      (s.params.w * (s.slot k).ordlen) (0, 1, 0)) := by
  obtain ⟨hload, hcurve⟩ := h.curve hk
  have hctx := hload.ctxOk h.params
  exact isMontPoint_ladder hctx ha (hcurve.isMont_b3 hload hb) hp _ _ (isMontPoint_infinity hctx hload.isMont_one)

theorem BlockOk.affineOf_val (h : BlockOk s) {k : CIdx} (hk : (s.slot k).cvalid = true) {ra : VIdx}
    {x y z : ZMod (val (s.ctx k).m)} (hp : IsMontPoint (s.ctx k).m (s.point ra) (x, y, z)) :
    ((affineOf s ra k).val.1 = decide (z = 0)) ∧
    ((affineOf s ra k).val.2.1.length = (s.slot k).clen ∧ val (affineOf s ra k).val.2.1 < val (s.ctx k).m ∧
      (val (affineOf s ra k).val.2.1 : ZMod (val (s.ctx k).m)) = x * z ^ (val (s.ctx k).m - 2)) ∧
    ((affineOf s ra k).val.2.2.length = (s.slot k).clen ∧ val (affineOf s ra k).val.2.2 < val (s.ctx k).m ∧
      (val (affineOf s ra k).val.2.2 : ZMod (val (s.ctx k).m)) = y * z ^ (val (s.ctx k).m - 2)) := by
  have hload := h.slotLoaded hk
  have := affineT_val (hload.ctxOk h.params) (one_le_win h.params) hload.isMont_one hp
  rwa [length_ctx_m] at this

/-! Every command's effect. -/

/-- A command all of whose checks hold keeps the invariant of registers and slots. -/
theorem BlockOk.effect (h : BlockOk s) {i : Instr} (hp : Passes s i) : BlockOk (effect s i) := by
  have hw := one_le_width h.params
  have hwin := one_le_win h.params
  obtain ⟨htag, hval⟩ := (passes_iff s i).mp hp
  cases i with
  | nop => exact h
  | zeroize => exact h.zeroizeAll
  | add rd ra rb | sub rd ra rb =>
    simp only [tagChecks, List.forall_mem_cons, Bool.and_eq_true, sameLen, beq_iff_eq] at htag
    obtain ⟨⟨hva, -⟩, -, hlen, -⟩ := htag
    refine (h.write_std ?_ ?_ rd).congr rfl rfl rfl <;> simp [← hlen, h.len_pos hva, h.len_le]
  | cmp ra rb | iszero ra => exact h.congr rfl rfl rfl
  | sel rd ra rb cond =>
    simp only [tagChecks, List.forall_mem_cons, Bool.and_eq_true, sameForm, sameLen, beq_iff_eq] at htag
    obtain ⟨-, ⟨hva, hvb⟩, ⟨-, hform, hctx⟩, hlen, -⟩ := htag
    rw [Machine.effect, selectN_eq_ite (by simp [hlen])]
    refine h.setReg ?_ rd
    split_ifs
    · exact mkReg_limbs h hva ▸ h.regs ra
    · rw [hform, hctx]
      exact mkReg_limbs h hvb ▸ h.regs rb
  | cswap ra rb cond =>
    simp only [tagChecks, List.forall_mem_cons, Bool.and_eq_true, sameForm, sameLen, beq_iff_eq] at htag
    obtain ⟨-, ⟨hva, hvb⟩, ⟨-, hform, hctx⟩, hlen, -⟩ := htag
    have ha : RegOk s (mkReg (s.reg ra).form (s.reg ra).ctx (s.limbs ra)) := (mkReg_limbs h hva).symm ▸ h.regs ra
    have hb : RegOk s (mkReg (s.reg rb).form (s.reg rb).ctx (s.limbs rb)) := (mkReg_limbs h hvb).symm ▸ h.regs rb
    have hl : (s.limbs ra).length = (s.limbs rb).length := by simp [hlen]
    rw [Machine.effect]
    cases flagVal s.flags cond with
    | false =>
      rw [cswapN_false hl]
      exact (h.setReg ha ra).setReg hb rb
    | true =>
      rw [cswapN_true hl]
      rw [← hform, ← hctx] at hb ⊢
      exact (h.setReg hb ra).setReg ha rb
  | ctxload ra k =>
    simp only [tagChecks, List.forall_mem_cons] at htag
    obtain ⟨hva, hstd, -⟩ := htag
    simp only [valueChecks, List.forall_mem_cons, headD_getLsbD_zero hw, decide_eq_true_eq] at hval
    have hslot := slotOk_loadedSlot h.params hval.1 (by simp [h.len_le])
    rw [length_limbs] at hslot
    exact h.clearWhere_setSlot _ hslot fun i hi => h.regOk_setSlot_of_not_tagged hi
  | tomont rd ra k =>
    simp only [tagChecks, List.forall_mem_cons, hasLen_iff] at htag
    obtain ⟨hk, -, -, hlen, -⟩ := htag
    exact h.write_mont hk ((h.slotLoaded hk).isMont_tomontT h.params (by simp [hlen])) rd
  | montmul rd ra rb k =>
    simp only [tagChecks, List.forall_mem_cons, Bool.and_eq_true] at htag
    obtain ⟨hk, -, ⟨ha, hb⟩, -⟩ := htag
    obtain ⟨x, hx⟩ := h.exists_isMont_of_isMont ha
    obtain ⟨y, hy⟩ := h.exists_isMont_of_isMont hb
    exact h.write_mont hk (isMont_mmT ((h.slotLoaded hk).ctxOk h.params) hx hy) rd
  | montsqr rd ra k =>
    simp only [tagChecks, List.forall_mem_cons] at htag
    obtain ⟨hk, -, ha, -⟩ := htag
    obtain ⟨x, hx⟩ := h.exists_isMont_of_isMont ha
    exact h.write_mont hk (isMont_mmT ((h.slotLoaded hk).ctxOk h.params) hx hx) rd
  | frommont rd ra k =>
    simp only [tagChecks, List.forall_mem_cons] at htag
    obtain ⟨hk, -, ha, -⟩ := htag
    obtain ⟨x, hx⟩ := h.exists_isMont_of_isMont ha
    have hload := h.slotLoaded hk
    have hlen := (frommontT_spec (hload.ctxOk h.params) hx).1.trans (length_ctx_m s k)
    exact h.write_std (hload.len_pos.trans_eq hlen.symm) (hlen.trans_le hload.len_le) rd
  | modexp rd ra rb k =>
    simp only [tagChecks, List.forall_mem_cons, Bool.and_eq_true] at htag
    obtain ⟨hk, -, ⟨ha, -⟩, -⟩ := htag
    obtain ⟨x, hx⟩ := h.exists_isMont_of_isMont ha
    exact h.write_mont hk (h.isMont_powOf hk hx rb) rd
  | modexpb rd ra rb rc k =>
    simp only [tagChecks, List.forall_mem_cons, Bool.and_eq_true] at htag
    obtain ⟨hk, -, ⟨⟨ha, -⟩, -⟩, -⟩ := htag
    obtain ⟨x, hx⟩ := h.exists_isMont_of_isMont ha
    refine (h.write_mont hk (h.isMont_blindPowOf hk hx rb rc) rd).congr ?_ ?_ ?_ <;> simp [Machine.effect]
  | crvload ra rb rc k =>
    simp only [tagChecks, List.forall_mem_cons, Bool.and_eq_true, hasLen_iff] at htag
    obtain ⟨hk, ⟨-, hvc⟩, -, ⟨ha, hb⟩, -⟩ := htag
    have hload := h.slotLoaded hk
    obtain ⟨hA, hB, hB3⟩ := isMont_curveConstT (hload.ctxOk h.params)
      (hload.isMont_tomontT h.params ((length_limbs s ra).trans ha))
        (hload.isMont_tomontT h.params ((length_limbs s rb).trans hb))
    have hslot := slotOk_curve h.params (h.slots k) hk hload hA hB hB3 (order := s.limbs rc) (by simp [h.len_pos hvc])
      (by simp [h.len_le])
    rw [length_limbs] at hslot
    exact h.clearWhere_setSlot _ hslot fun i _ => h.regOk_setSlot_of_same ⟨rfl, rfl, rfl⟩ rfl
  | ptload rd ra rb k =>
    simp only [tagChecks, List.forall_mem_cons, Bool.and_eq_true, hasLen_iff] at htag
    obtain ⟨-, hk, -, -, ⟨ha, hb⟩, -⟩ := htag
    obtain ⟨hload, -⟩ := h.curve hk
    exact h.writePoint hk (c := (_, _, 1)) ⟨hload.isMont_tomontT h.params ((length_limbs s ra).trans ha),
      hload.isMont_tomontT h.params ((length_limbs s rb).trans hb), hload.isMont_one⟩ rd
  | ptinf rd k =>
    simp only [tagChecks, List.forall_mem_cons] at htag
    obtain ⟨-, hk, -⟩ := htag
    obtain ⟨hload, -⟩ := h.curve hk
    exact h.writePoint hk (isMontPoint_infinity (hload.ctxOk h.params) hload.isMont_one) rd
  | ptadd rd ra rb k =>
    simp only [tagChecks, List.forall_mem_cons, Bool.and_eq_true, tripleTagged_iff] at htag
    obtain ⟨-, hk, -, ⟨ha, hb⟩, -⟩ := htag
    obtain ⟨a, b, hA, hB⟩ := h.exists_curve hk
    obtain ⟨c, hc⟩ := ha.exists_isMontPoint h
    obtain ⟨d, hd⟩ := hb.exists_isMontPoint h
    exact h.writePoint hk (h.isMontPoint_sumOf hk hA hB hc hd) rd
  | ptdbl rd ra k =>
    simp only [tagChecks, List.forall_mem_cons, tripleTagged_iff] at htag
    obtain ⟨-, hk, -, ha, -⟩ := htag
    obtain ⟨a, b, hA, hB⟩ := h.exists_curve hk
    obtain ⟨c, hc⟩ := ha.exists_isMontPoint h
    exact h.writePoint hk (h.isMontPoint_sumOf hk hA hB hc hc) rd
  | ptaff rd ra rb k =>
    simp only [tagChecks, List.forall_mem_cons, tripleTagged_iff] at htag
    obtain ⟨-, -, hk, -, ha, -⟩ := htag
    obtain ⟨hload, -⟩ := h.curve hk
    obtain ⟨⟨x, y, z⟩, hc⟩ := ha.exists_isMontPoint h
    obtain ⟨-, ⟨hx, -⟩, hy, -⟩ := h.affineOf_val ((curveLoaded_iff s k).mp hk).1 hc
    have hX := h.regOk_std (hload.len_pos.trans_eq hx.symm) (hx.trans_le hload.len_le)
    have hY := h.regOk_std (hload.len_pos.trans_eq hy.symm) (hy.trans_le hload.len_le)
    rw [Machine.effect]
    exact ((h.setReg hX rd).setReg hY rb).setInf _
  | scmul rd ra rb k noinf =>
    simp only [tagChecks, List.forall_mem_cons, Bool.and_eq_true, tripleTagged_iff] at htag
    obtain ⟨-, hk, -, ⟨ha, -⟩, -⟩ := htag
    obtain ⟨a, b, hA, hB⟩ := h.exists_curve hk
    obtain ⟨c, hc⟩ := ha.exists_isMontPoint h
    exact h.writePoint hk (h.isMontPoint_multipleOf hk hA hB hc rb) rd

end

end Sys2Proof.Machine
end

section
/-! SUPPORT. The invariant through one step: the end of a command, and a host access. -/

namespace Sys2Proof.Machine

section
variable {s : State}

theorem Inv.status (h : Inv s) : StatusOk s := by
  obtain ⟨-, -, -, hstatus⟩ := h
  exact hstatus

theorem BlockOk.inv (h : BlockOk s) (hstatus : StatusOk s) : Inv s := ⟨h.params, h.regs, h.slots, hstatus⟩

/-- A state that differs from `s` in no register, slot, status or configuration. -/
theorem Inv.congr {t : State} (h : Inv s) (hp : t.params = s.params) (hv : t.v = s.v) (hc : t.c = s.c)
    (hstatus : t.busy = s.busy ∧ t.done = s.done ∧ t.fatal = s.fatal ∧ t.err = s.err) : Inv t := by
  obtain ⟨hb, hd, hf, he⟩ := hstatus
  refine (h.block.congr hp hv hc).inv ?_
  rw [StatusOk, hb, hd, hf, he]
  exact h.status

/-- A state that runs no command. -/
theorem Inv.of_idle {t : State} (h : Inv s) (ht : BlockOk t) (hb : t.busy = false) (hf : t.fatal = s.fatal)
    (he : t.err = s.err) : Inv t := by
  obtain ⟨-, hfatal⟩ := h.status
  refine ht.inv ⟨fun hb' => absurd hb' (by simp [hb]), ?_⟩
  rwa [hf, he]

/-! The end of a command. -/

theorem BlockOk.inv_errorState (h : BlockOk s) (hf : s.fatal = false) (e : ErrCode) (tr : List TraceEvent) :
    Inv (errorState e tr s) := by
  refine (h.congr (t := errorState e tr s) rfl rfl rfl).inv ⟨fun hb => absurd hb (by simp), ?_⟩
  rw [errorState_fatal, errorState_err, hf, Bool.false_or, Option.any_some]

theorem BlockOk.entered (h : BlockOk s) (i : Instr) : BlockOk (entered s i) := by
  rw [entered_eq]
  exact h.congr rfl rfl rfl

theorem Inv.exec (h : Inv s) (hb : s.busy = true) {i : Instr} {t : State} (hexec : exec i s = .next t) : Inv t := by
  obtain ⟨hrunning, -⟩ := h.status
  obtain ⟨herr, hfatal, -⟩ := hrunning hb
  rcases (exec_eq_next i s t).mp hexec with ⟨c, hc, rfl⟩ | ⟨c, htag, hc, rfl⟩ | ⟨hp, rfl⟩
  · exact h.block.inv_errorState hfatal _ _
  · refine (h.block.entered i).inv_errorState ?_ _ _
    rw [entered_eq, hfatal]
  · obtain ⟨⟨he, hf, -⟩, -⟩ := effect_frame s i
    exact h.of_idle ((h.block.effect hp).congr rfl rfl rfl) rfl hf he

theorem Inv.sequencerTurn (h : Inv s) {t : State} (hturn : sequencerTurn s = .next t) : Inv t := by
  cases hb : s.busy with
  | false =>
    rw [sequencerTurn_of_idle hb] at hturn
    cases hturn
    exact h
  | true =>
    cases hd : decode s.cmd with
    | error r =>
      rw [sequencerTurn_of_reject hb hd] at hturn
      cases hturn
      obtain ⟨hrunning, -⟩ := h.status
      obtain ⟨-, hfatal, -⟩ := hrunning hb
      exact h.block.inv_errorState hfatal _ _
    | ok i => exact h.exec hb ((sequencerTurn_of_decode hb hd).symm.trans hturn)

/-! A host access. -/

/-- A STD zero of legal length. -/
theorem BlockOk.regOk_zero (h : BlockOk s) {n : Nat} (hpos : 1 ≤ n) (hle : n ≤ lmax s.params) :
    RegOk s (regOf n .std 0 0) := by
  have hzero := h.regOk_std (a := limbsOf s.params.w n 0) (by rwa [length_limbsOf]) (by rwa [length_limbsOf])
  rwa [mkReg_eq_regOf, length_limbsOf, val_limbsOf, Nat.zero_mod] at hzero

theorem statusOk_resetBlock (s : State) : StatusOk s.resetBlock := show StatusOk State.reset by decide

/-- A word within a register's length leaves the value below its length's bound. -/
theorem setDataWord_lt {x : VData} {n j : Nat} (hx : x.toNat < 2 ^ n) (hj : 32 * j + 32 ≤ n) (d : Word) :
    (setDataWord x j d).toNat < 2 ^ n := by
  refine Nat.lt_pow_two_of_testBit _ fun t ht => ?_
  rw [BitVec.testBit_toNat]
  by_cases hwidth : t < 4096
  · rw [getLsbD_setDataWord x j d hwidth, if_neg (by omega), ← BitVec.testBit_toNat]
    exact Nat.testBit_lt_two_pow (hx.trans_le (Nat.pow_le_pow_right Nat.two_pos ht))
  · exact BitVec.getLsbD_of_ge _ _ (by omega)

theorem BlockOk.regOk_setDataWord (h : BlockOk s) {i : VIdx} {j : Nat} (hv : (s.reg i).valid = true)
    (hstd : (s.reg i).form = .std) (hj : j < (s.reg i).len * s.params.w / 32) (d : Word) :
    RegOk s { s.reg i with data := setDataWord (s.reg i).data j d } := by
  obtain ⟨-, hvalid, hctx, -, -⟩ := h.regs i
  obtain ⟨hpos, hle, hlt⟩ := hvalid hv
  have hfits : 32 * j + 32 ≤ s.params.w * (s.reg i).len := by
    rw [Nat.mul_comm s.params.w]
    omega
  exact ⟨fun hv' => absurd hv (by simp_all), fun _ => ⟨hpos, hle, setDataWord_lt hlt hfits d⟩, hctx,
    fun hf => absurd hstd hf, fun hf => absurd hf (by simp [hstd])⟩

/-- What it takes for a write to be allowed. -/
theorem not_busy_of_writeAllowed {w : WinReg} (h : writeAllowed s.condition w = true) : s.busy = false := by
  cases hb : s.busy with
  | false => rfl
  | true => simp [State.condition, hb, writeAllowed] at h

theorem idle_of_writeAllowed_cmd (h : writeAllowed s.condition .cmd = true) : s.fatal = false ∧ s.err = none := by
  have hb := not_busy_of_writeAllowed h
  cases hf : s.fatal with
  | true => simp [State.condition, hb, hf, writeAllowed] at h
  | false =>
    cases he : s.err with
    | none => exact ⟨rfl, rfl⟩
    | some e => simp [State.condition, hb, hf, he, writeAllowed] at h

theorem Inv.busWrite (h : Inv s) {off bytes : Nat} {d : Word} {t : State} (hw : busWrite s off bytes d = some t) :
    Inv t := by
  obtain ⟨w, hallowed, hreg⟩ := busWrite_eq_some hw
  have hb := not_busy_of_writeAllowed hallowed
  rcases writeReg_reg hreg with rfl | ⟨i, rfl⟩ | ⟨i, hpos, hle, rfl⟩ | ⟨i, j, ⟨hv, hstd, hj⟩, rfl⟩ | ⟨b, e, rfl⟩ |
    ⟨hf, rfl⟩ | ⟨rfl, rfl⟩
  · exact h.block.resetBlock.inv (statusOk_resetBlock _)
  · exact h.of_idle (h.block.setReg (regOk_cleared s) i) hb rfl rfl
  · exact h.of_idle (h.block.setReg (h.block.regOk_zero hpos hle) i) hb rfl rfl
  · exact h.of_idle (h.block.setReg (h.block.regOk_setDataWord hv hstd hj d) i) hb rfl rfl
  · exact h.of_idle (h.block.congr rfl rfl rfl) hb rfl rfl
  · exact (h.block.congr (t := s.clearErr) rfl rfl rfl).inv ⟨fun hb' => absurd hb' (by simp [hb]), by simp [hf]⟩
  · obtain ⟨hf, he⟩ := idle_of_writeAllowed_cmd hallowed
    exact (h.block.congr (t := s.accept d) rfl rfl rfl).inv ⟨fun _ => ⟨he, hf, rfl⟩, by simp [hf, he]⟩

theorem Inv.answer (h : Inv s) (a : BusAnswer) : Inv (s.answer a) := h.congr rfl rfl rfl ⟨rfl, rfl, rfl, rfl⟩

theorem Inv.hostAccess (h : Inv s) (a : Access) : Inv (hostAccess s a) := by
  cases a with
  | read off bytes =>
    rw [hostAccess_read]
    exact h.congr rfl rfl rfl ⟨rfl, rfl, rfl, rfl⟩
  | write off bytes d =>
    cases hw : Machine.busWrite s off bytes d with
    | none =>
      rw [hostAccess_write_refused hw]
      exact h.congr rfl rfl rfl ⟨rfl, rfl, rfl, rfl⟩
    | some t =>
      rw [hostAccess_write_taken hw]
      exact (h.busWrite hw).answer _

theorem Inv.busAccess (h : Inv s) (a : Access) : Inv (busAccess s a) := by
  rw [Machine.busAccess]
  cases a.toWindow s.params with
  | none => exact h.answer _
  | some b => exact h.hostAccess b

end

end Sys2Proof.Machine
end

section
/-! The statements: the invariant of every reachable state, through any step. -/

namespace Sys2Proof.Machine

/-- Settles O55: by the event of the step; a command by the checks it passed, a write by what it can write. -/
theorem stepKeepsInvariant : Obligations.StepKeepsInvariant := by
  intro s t h hstep
  cases he : s.events with
  | nil => exact h.sequencerTurn ((step_of_events_nil he).symm.trans hstep)
  | cons e rest =>
    rw [step_of_events_cons he] at hstep
    have hrest : Inv { s with events := rest } := h.congr rfl rfl rfl ⟨rfl, rfl, rfl, rfl⟩
    cases e with
    | access a =>
      cases hstep
      exact hrest.busAccess a
    | sequencer => exact hrest.sequencerTurn hstep
    | hardReset =>
      cases hstep
      exact hrest.block.resetBlock.inv (statusOk_resetBlock _)

end Sys2Proof.Machine
end

section
/-! SUPPORT. From the checks and the effect of a command to its whole next state. -/

namespace Sys2Proof.Machine

section
variable {s : State} {i : Instr}

/-- The next state of a command that writes one register. -/
theorem exec_write (h : BlockOk s) (hp : Passes s i) {w : Nat} {rd : VIdx} {form : Form} {k : CIdx} {a : Limbs w}
    (heff : effect s i = s.write rd form k a) {n x : Nat} (hlen : a.length = n) (hval : val a = x) :
    exec i s = .next { s with
      v := s.v.set rd (regOf n form k x), busy := false, done := true, trace := successTrace s i } := by
  rw [exec_of_passes hp, finished, heff, work_eq_successTrace h hp, ← hlen, ← hval]
  rfl

/-- The next state of a command that writes a point. -/
theorem exec_writePoint (h : BlockOk s) (hp : Passes s i) {w : Nat} {rd : VIdx} {k : CIdx} {p : Point w}
    (heff : effect s i = s.writePoint rd k p) {n x y z : Nat} (hlen : p.HasLength n)
    (hval : val p.x = x ∧ val p.y = y ∧ val p.z = z) :
    exec i s = .next { s with
      v := withTriple s.v rd n k x y z, busy := false, done := true, trace := successTrace s i } := by
  obtain ⟨hx, hy, hz⟩ := hval
  have hX : mkReg .px k p.x = regOf n .px k x := by rw [mkReg_eq_regOf, hlen.x, hx]
  have hY : mkReg .py k p.y = regOf n .py k y := by rw [mkReg_eq_regOf, hlen.y, hy]
  have hZ : mkReg .pz k p.z = regOf n .pz k z := by rw [mkReg_eq_regOf, hlen.z, hz]
  rw [exec_of_passes hp, finished, heff, work_eq_successTrace h hp, State.writePoint, State.write, State.write,
    State.write, hX, hY, hZ]
  rfl

theorem errorState_of_recoverable {e : ErrCode} (he : errClass e ≠ .contract) (tr : List TraceEvent) (s : State) :
    errorState e tr s = { s with err := some e, busy := false, done := true, trace := tr } := by
  rw [errorState, beq_eq_false_iff_ne.mpr he, Bool.or_false]

theorem errorState_of_contract {e : ErrCode} (he : errClass e = .contract) (tr : List TraceEvent) (s : State) :
    errorState e tr s = { s with err := some e, fatal := true, busy := false, done := true, trace := tr } := by
  rw [errorState, he, beq_self_eq_true, Bool.or_true]

/-- A command whose tags are right ends at the first check on values that fails. -/
theorem exec_of_value_fails (htag : ∀ c ∈ tagChecks s i, c.ok = true) {c : Check}
    (hc : firstFailing (valueChecks s i) = some c) : exec i s = .next (errorState c.code c.work (entered s i)) :=
  (exec_eq_next i s _).mpr (.inr (.inl ⟨c, firstFailing_eq_none.mpr htag, hc, rfl⟩))

/-- The first of the checks fails. -/
theorem firstFailing_cons_false {c : Check} (h : c.ok = false) (cs : List Check) : firstFailing (c :: cs) = some c := by
  simp [firstFailing, h]

theorem firstFailing_cons_true {c : Check} (h : c.ok = true) (cs : List Check) :
    firstFailing (c :: cs) = firstFailing cs := by
  simp [firstFailing, h]

/-- Checks on the tags only. -/
theorem passes_of_tags (hval : valueChecks s i = []) (htag : ∀ c ∈ tagChecks s i, c.ok = true) : Passes s i :=
  (passes_iff s i).mpr ⟨htag, by simp [hval]⟩

end

/-! Values of registers. -/

theorem toNat_eq_zero_iff {n : Nat} (x : BitVec n) : x.toNat = 0 ↔ x = 0 := by
  rw [BitVec.toNat_eq, BitVec.ofNat_eq_ofNat, BitVec.toNat_ofNat, Nat.zero_mod]

theorem setReg_reg (s : State) (i : VIdx) : s.setReg i (s.reg i) = s := by
  rw [State.setReg, State.reg, Fin.getElem_fin, Vector.set_getElem_self]

/-! Sums and differences in a register's length. -/

theorem addN_spec {w : Nat} (hw : 1 ≤ w) {a b : Limbs w} (hl : a.length = b.length) :
    val (addN a b).1 = (val a + val b) % 2 ^ (w * a.length) ∧
    (addN a b).2 = decide (2 ^ (w * a.length) ≤ val a + val b) := by
  have hlaw := val_addN hw hl
  have hlt := val_lt (addN a b).1
  rw [length_addN, ← hl, Nat.min_self] at hlt
  rw [← hlaw, Nat.add_mul_mod_self_right, Nat.mod_eq_of_lt hlt]
  refine ⟨rfl, ?_⟩
  cases (addN a b).2
  · simpa using hlt
  · simp

theorem subN_spec {w : Nat} (hw : 1 ≤ w) {a b : Limbs w} (hl : a.length = b.length) :
    val (subN a b).1 = (val a + 2 ^ (w * a.length) - val b) % 2 ^ (w * a.length) ∧
    (subN a b).2 = decide (val a < val b) := by
  have hlaw := val_subN hw hl
  have hlt := val_subN_lt hl
  have hborrow : (subN a b).2 = decide (val a < val b) := by
    rw [Bool.eq_iff_iff, subN_borrow_iff hw hl, decide_eq_true_iff]
  refine ⟨?_, hborrow⟩
  have hb := val_lt b
  rw [← hl] at hb
  rw [hborrow] at hlaw
  by_cases hless : val a < val b
  · rw [decide_eq_true hless, Bool.toNat_true] at hlaw
    rw [show val a + 2 ^ (w * a.length) - val b = val (subN a b).1 by omega, Nat.mod_eq_of_lt hlt]
  · rw [decide_eq_false hless, Bool.toNat_false] at hlaw
    rw [show val a + 2 ^ (w * a.length) - val b = val (subN a b).1 + 2 ^ (w * a.length) by omega, Nat.add_mod_right,
      Nat.mod_eq_of_lt hlt]

end Sys2Proof.Machine
end

section
/-! The statements: the results of the adder/subtractor and of the conditional select. -/

namespace Sys2Proof.Machine

/-- Settles O24: the limb functions give the sum and the difference in the register's length, and their carries. -/
theorem addAndSubResult : Obligations.AddAndSubResult := by
  intro s rd ra rb hinv hva hvb hfa hfb hlen n x y
  have h := hinv.block
  have hl : (s.limbs ra).length = (s.limbs rb).length := by simp [hlen]
  obtain ⟨hsum, hcarry⟩ := addN_spec (one_le_width h.params) hl
  obtain ⟨hdiff, hborrow⟩ := subN_spec (one_le_width h.params) hl
  simp only [h.val_limbs, length_limbs] at hsum hcarry hdiff hborrow
  have hadd : Passes s (.add rd ra rb) :=
    passes_of_tags rfl (by simp [tagChecks, isValid, isStd, sameLen, hva, hvb, hfa, hfb, hlen])
  have hsub : Passes s (.sub rd ra rb) :=
    passes_of_tags rfl (by simp [tagChecks, isValid, isStd, sameLen, hva, hvb, hfa, hfb, hlen])
  have hlenAdd : (addN (s.limbs ra) (s.limbs rb)).1.length = n := by simp [n, hlen]
  have hlenSub : (subN (s.limbs ra) (s.limbs rb)).1.length = n := by simp [n, hlen]
  constructor
  · rw [exec_of_passes hadd, finished, work_eq_successTrace h hadd, effect, ← hsum, ← hcarry, ← hlenAdd]
    rfl
  · rw [exec_of_passes hsub, finished, work_eq_successTrace h hsub, effect, ← hdiff, ← hborrow, ← hlenSub]
    rfl

/-- Settles O25: the zero test and the comparison of limb vectors are those of the values. -/
theorem compareAndZeroResult : Obligations.CompareAndZeroResult := by
  intro s ra rb hinv hva
  have h := hinv.block
  have hw := one_le_width h.params
  have hzero : Passes s (.iszero ra) := passes_of_tags rfl (by simp [tagChecks, isValid, hva])
  constructor
  · have hz : isZeroN (s.limbs ra) = decide ((s.reg ra).data = 0) := by
      rw [isZeroN_eq hw, h.val_limbs]
      exact decide_eq_decide.mpr (toNat_eq_zero_iff _)
    rw [exec_of_passes hzero, finished, work_eq_successTrace h hzero, effect, hz]
    rfl
  · intro hvb hform hctx hlen
    have hcmp : Passes s (.cmp ra rb) :=
      passes_of_tags rfl (by simp [tagChecks, isValid, sameForm, sameLen, hva, hvb, hform, hctx, hlen])
    have heq : decide ((s.reg ra).data.toNat = (s.reg rb).data.toNat) = decide ((s.reg ra).data = (s.reg rb).data) :=
      decide_eq_decide.mpr BitVec.toNat_inj
    rw [exec_of_passes hcmp, finished, work_eq_successTrace h hcmp, effect, cmpN_eq hw (by simp [hlen]), h.val_limbs,
      h.val_limbs, heq]
    rfl

/-- Settles O26: a vector chosen or exchanged whole makes, with the common tag, the register it came from. -/
theorem selectAndSwapResult : Obligations.SelectAndSwapResult := by
  intro s rd ra rb cond hinv hcond hva hvb hplain hform hctx hlen f
  have h := hinv.block
  have hl : (s.limbs ra).length = (s.limbs rb).length := by simp [hlen]
  have hsel : Passes s (.sel rd ra rb cond) :=
    passes_of_tags rfl (by
      simp [tagChecks, isValid, isSelectable, sameForm, sameLen, hcond, hva, hvb, ← hform, hctx, hlen, hplain])
  have hswap : Passes s (.cswap ra rb cond) :=
    passes_of_tags rfl (by
      simp [tagChecks, isValid, isSelectable, sameForm, sameLen, hcond, hva, hvb, ← hform, hctx, hlen, hplain])
  have ha := mkReg_limbs h hva
  have hb := mkReg_limbs h hvb
  constructor
  · have hreg : mkReg (s.reg ra).form (s.reg ra).ctx (if f then s.limbs ra else s.limbs rb) =
        if f then s.reg ra else s.reg rb := by
      rw [apply_ite (mkReg _ _), ha, hform, hctx, hb]
    rw [exec_of_passes hsel, finished, work_eq_successTrace h hsel, effect, selectN_eq_ite hl, State.write, hreg]
    rfl
  · rw [exec_of_passes hswap, finished, work_eq_successTrace h hswap, effect]
    cases hf : flagVal s.flags cond with
    | false =>
      rw [cswapN_false hl, State.write, State.write, ha, hb, setReg_reg, setReg_reg, if_neg (by simp [f, hf])]
    | true =>
      rw [cswapN_true hl, State.write, State.write, ← hform, ← hctx, ha, hform, hctx, hb, if_pos hf]
      rfl

end Sys2Proof.Machine
end

section
/-! The statements: the results of the Montgomery multiplier and of the exponentiation engine. -/

namespace Sys2Proof.Machine

/-- The registers that CTXLOAD destroys, in the statement's words. -/
theorem clearWhere_taggedWith (s : State) (k : CIdx) : (s.clearWhere (taggedWith k)).v =
    s.v.map fun r => if r.valid = true ∧ r.form ≠ .std ∧ r.ctx = k then VReg.cleared else r := by
  rw [clearWhere_v]
  congr 1
  funext r
  simp [taggedWith, and_assoc]

/-- Settles O27: the constants are MKCTX's for an odd modulus; the low bit of an even one fails the check. -/
theorem contextLoadResult : Obligations.ContextLoadResult := by
  intro s ra cx hinv hva hstd n m
  have h := hinv.block
  have hw := one_le_width h.params
  have htag : ∀ c ∈ tagChecks s (.ctxload ra cx), c.ok = true := by simp [tagChecks, isValid, isStd, hva, hstd]
  have hbit := headD_getLsbD_zero hw (s.limbs ra)
  rw [h.val_limbs] at hbit
  constructor
  · intro hodd
    have hodd' : val (s.limbs ra) % 2 = 1 := by rwa [h.val_limbs]
    have hp : Passes s (.ctxload ra cx) :=
      (passes_iff ..).mpr ⟨htag, List.forall_mem_singleton.mpr (hbit.trans (decide_eq_true hodd))⟩
    obtain ⟨⟨hm, hn0⟩, ⟨-, hone⟩, -, hrr⟩ := mkctx_spec hw hodd'
    have hinverse := (n0Ok_n0inv hw hodd').inverse
    rw [h.val_limbs] at hinverse hone hrr
    rw [length_limbs] at hone hrr
    refine ⟨(n0inv ((s.limbs ra).headD 0)).toNat, BitVec.isLt _, hinverse, ?_⟩
    have hslot : loadedSlot (s.reg ra).len (mkctx (s.limbs ra)).val = { Slot.empty with
          cvalid := true, clen := n, m := BitVec.ofNat 4096 m
          one := BitVec.ofNat 4096 (radix s.params n % m)
          rr := BitVec.ofNat 4096 (radix s.params n ^ 2 % m)
          n0 := BitVec.ofNat 64 (n0inv ((s.limbs ra).headD 0)).toNat } := by
      rw [loadedSlot, packed, packed, packed, hone, hrr, hm, hn0, h.val_limbs]
    rw [exec_of_passes hp, finished, work_eq_successTrace h hp, effect, hslot, ← clearWhere_taggedWith]
    rfl
  · intro heven
    have hfails := firstFailing_cons_false
      (c := ⟨((s.limbs ra).headD 0).getLsbD 0, .eModEven, []⟩) (hbit.trans (decide_eq_false (by omega))) []
    rw [exec_of_value_fails htag hfails, errorState_of_contract rfl]
    rfl

/-- Settles O28: the range check compares with the modulus; below it MONTMUL by `R^2` gives the Montgomery form. -/
theorem toMontgomeryResult : Obligations.ToMontgomeryResult := by
  intro s rd ra cx hinv hk hva hstd hlen n m x
  have h := hinv.block
  have hload := h.slotLoaded hk
  have htag : ∀ c ∈ tagChecks s (.tomont rd ra cx), c.ok = true := by
    simp [tagChecks, slotLoaded, isValid, isStd, hasLen, hk, hva, hstd, hlen]
  have hl : (s.limbs ra).length = (s.ctx cx).m.length := by simp [hlen]
  have hless : (cmpN (s.limbs ra) (s.ctx cx).m).lt = decide (x < m) := by
    rw [cmpN_eq (one_le_width h.params) hl, h.val_limbs, hload.val_m]
  constructor
  · intro hlt
    have hp : Passes s (.tomont rd ra cx) := (passes_iff ..).mpr ⟨htag, by simp [valueChecks, hless, hlt]⟩
    have hmont := hload.isMont_tomontT h.params (hl.trans (length_ctx_m s cx))
    rw [h.val_limbs] at hmont
    have hlength := hmont.length_eq.trans (length_ctx_m s cx)
    exact exec_write h hp rfl hlength ((hload.isMont_iff hlength _).mp hmont)
  · intro hle
    rw [exec_of_value_fails htag (firstFailing_cons_false (by simp [hless, hle]) _),
      errorState_of_recoverable (by simp [errClass])]
    simp [hlen, entered, n]

/-- Settles O29: the operands are canonical, so their product is below `m * R`. -/
theorem montgomeryProductResult : Obligations.MontgomeryProductResult := by
  intro s rd ra rb cx hinv hk hva hfa hca n m x y
  have h := hinv.block
  have hload := h.slotLoaded hk
  have hproduct {i j : VIdx} (hi : isMont s i cx = true) (hj : isMont s j cx = true) :
      (mmT (s.ctx cx) (s.limbs i) (s.limbs j)).val.length = n ∧ val (mmT (s.ctx cx) (s.limbs i) (s.limbs j)).val < m ∧
      val (mmT (s.ctx cx) (s.limbs i) (s.limbs j)).val * radix s.params n % m =
        (s.reg i).data.toNat * (s.reg j).data.toNat % m := by
    obtain ⟨u, hu⟩ := h.exists_isMont_of_isMont hi
    obtain ⟨v, hv⟩ := h.exists_isMont_of_isMont hj
    have hspec := montmul_spec (hload.ctxOk h.params) hu.length_eq hv.length_eq
      (Nat.mul_lt_mul'' hu.lt (hv.lt.trans (val_lt _)))
    rw [hload.val_m, length_ctx_m, h.val_limbs, h.val_limbs] at hspec
    exact hspec
  have ha : isMont s ra cx = true := (isMont_iff s ra cx).mpr ⟨hfa, hca⟩
  refine ⟨fun hvb hfb hcb => ?_, ?_⟩
  · have hb : isMont s rb cx = true := (isMont_iff s rb cx).mpr ⟨hfb, hcb⟩
    have hp : Passes s (.montmul rd ra rb cx) :=
      passes_of_tags rfl (by simp [tagChecks, slotLoaded, isValid, hk, hva, hvb, ha, hb])
    obtain ⟨hlength, hlt, hmod⟩ := hproduct ha hb
    exact ⟨_, hlt, hmod, exec_write h hp rfl hlength rfl⟩
  · have hp : Passes s (.montsqr rd ra cx) := passes_of_tags rfl (by simp [tagChecks, slotLoaded, isValid, hk, hva, ha])
    obtain ⟨hlength, hlt, hmod⟩ := hproduct ha ha
    exact ⟨_, hlt, hmod, exec_write h hp rfl hlength rfl⟩

/-- Settles O30: MONTMUL by 1. -/
theorem fromMontgomeryResult : Obligations.FromMontgomeryResult := by
  intro s rd ra cx hinv hk hva hfa hca n m
  have h := hinv.block
  have hload := h.slotLoaded hk
  have ha : isMont s ra cx = true := (isMont_iff s ra cx).mpr ⟨hfa, hca⟩
  have hp : Passes s (.frommont rd ra cx) := passes_of_tags rfl (by simp [tagChecks, slotLoaded, isValid, hk, hva, ha])
  obtain ⟨x, hx⟩ := h.exists_isMont_of_isMont ha
  obtain ⟨hlength, hlt, hval⟩ := frommontT_spec (hload.ctxOk h.params) hx
  have hmod := hx.cast_eq
  rw [← hval, radixOf, ← Nat.cast_mul, ZMod.natCast_eq_natCast_iff', length_ctx_m, h.val_limbs, hload.val_m] at hmod
  rw [hload.val_m] at hlt
  exact ⟨_, hlt, hmod.symm, exec_write h hp rfl (hlength.trans (length_ctx_m s cx)) rfl⟩

/-- Settles O31: the register is the Montgomery form of `x`, and MODEXP raises it. -/
theorem exponentiationResult : Obligations.ExponentiationResult := by
  intro s rd ra rb cx x hinv hk hva hfa hca hvb hfb n m hx
  have h := hinv.block
  have hload := h.slotLoaded hk
  have hp : Passes s (.modexp rd ra rb cx) :=
    passes_of_tags rfl (by simp [tagChecks, slotLoaded, isValid, isMont, isStd, hk, hva, hfa, hca, hvb, hfb])
  have hpow := h.isMont_powOf hk (h.isMont_limbs (by simp [hfa]) hca hx) rb
  rw [h.val_limbs, ← Nat.cast_pow] at hpow
  have hlength := hpow.length_eq.trans (length_ctx_m s cx)
  exact exec_write h hp rfl hlength (((hload.isMont_iff hlength _).mp hpow).trans (Nat.mod_mul_mod ..).symm)

/-- The delivered bytes, read as a number (R174). -/
theorem blindFactor_eq_ofDigits (bytes : List Byte) :
    blindFactor bytes.length bytes = Nat.ofDigits 256 (bytes.map BitVec.toNat) := by
  induction bytes with
  | nil => rfl
  | cons b bs ih => rw [List.length_cons, blindFactor, ih, List.map_cons, Nat.ofDigits_cons]

/-- Settles O32: the answer drawn decides: with bytes the blinded exponent fits its `L2` limbs and MODEXP raises;
without, the one check on values fails. -/
theorem blindedExponentiationResult : Obligations.BlindedExponentiationResult := by
  intro s rd ra rb rc cx x hinv hk hva hfa hca hvb hfb hvc hfc n m hx answer
  have h := hinv.block
  have hload := h.slotLoaded hk
  have htag : ∀ c ∈ tagChecks s (.modexpb rd ra rb rc cx), c.ok = true := by
    simp [tagChecks, slotLoaded, isValid, isMont, isStd, hk, hva, hfa, hca, hvb, hfb, hvc, hfc]
  have hdraw : s.drawRng = (answer, { s with rng := s.rng.tail, rngCount := s.rngCount + 1 }) := drawRng_eq s
  constructor
  · intro bytes hanswer hcount k
    have hdelivered : deliveredBytes s.drawRng.1 = some bytes := by rw [hdraw, hanswer]; rfl
    have hp : Passes s (.modexpb rd ra rb rc cx) :=
      (passes_iff ..).mpr ⟨htag, List.forall_mem_singleton.mpr (by simp [hdelivered])⟩
    have hpow := h.isMont_blindPowOf hk (h.isMont_limbs (by simp [hfa]) hca hx) rb rc
    have hfactor : blindFactor (blindBytes s.params) bytes = k := by
      rw [blindBytes_eq, ← hcount, blindFactor_eq_ofDigits]
    rw [hdelivered, Option.getD_some, hfactor, h.val_limbs, h.val_limbs, ← Nat.cast_pow] at hpow
    have hlength := hpow.length_eq.trans (length_ctx_m s cx)
    have hval := ((hload.isMont_iff hlength _).mp hpow).trans (Nat.mod_mul_mod ..).symm
    rw [exec_of_passes hp, finished, work_eq_successTrace h hp, effect, State.write, mkReg_eq_regOf, hlength, hval,
      hdraw]
    rfl
  · intro hanswer
    have hdelivered : deliveredBytes s.drawRng.1 = none := by
      rw [hdraw]
      rcases hanswer with hanswer | hanswer <;> rw [hanswer] <;> rfl
    have hfails := firstFailing_cons_false
      (c := ⟨(deliveredBytes s.drawRng.1).isSome, .eRng, [.rng (blindBytes s.params)]⟩) (by simp [hdelivered]) []
    rw [exec_of_value_fails htag hfails, errorState_of_recoverable (by simp [errClass]), entered, hdraw]
    rfl

end Sys2Proof.Machine
end

section
/-! SUPPORT. Points and constants of a slot as the statements write them: numbers times `R` modulo `m`. -/

namespace Sys2Proof.Machine

section
variable {s : State} {k : CIdx}

theorem BlockOk.packed_limbs (h : BlockOk s) (i : VIdx) : packed (s.limbs i) = (s.reg i).data := by
  rw [packed, h.val_limbs, BitVec.ofNat_toNat, BitVec.setWidth_eq]

/-- The value of a Montgomery form. -/
theorem SlotLoaded.val_of_isMont (h : SlotLoaded s.params (s.slot k)) {a : Limbs s.params.w} {x : Nat}
    (ha : IsMont (s.ctx k).m a x) : val a = x * radix s.params (s.slot k).clen % (s.slot k).m.toNat :=
  (h.isMont_iff (ha.length_eq.trans (length_ctx_m s k)) x).mp ha

/-- A point in Montgomery form, by numbers that stand for its coordinates. -/
theorem SlotLoaded.exists_coordinates (h : SlotLoaded s.params (s.slot k)) {p : Point s.params.w}
    {c : ZMod (val (s.ctx k).m) × ZMod (val (s.ctx k).m) × ZMod (val (s.ctx k).m)} (hp : IsMontPoint (s.ctx k).m p c) :
    ∃ x y z : Nat, ((x : ZMod (val (s.ctx k).m)), (y : ZMod (val (s.ctx k).m)), (z : ZMod (val (s.ctx k).m))) = c ∧
      p.HasLength (s.slot k).clen ∧
      (val p.x = x * radix s.params (s.slot k).clen % (s.slot k).m.toNat ∧
        val p.y = y * radix s.params (s.slot k).clen % (s.slot k).m.toNat ∧
        val p.z = z * radix s.params (s.slot k).clen % (s.slot k).m.toNat) := by
  have hne : NeZero (val (s.ctx k).m) := ⟨h.val_m ▸ h.m_pos.ne'⟩
  obtain ⟨hx, hy, hz⟩ := hp
  have hlength := (IsMontPoint.mk hx hy hz).hasLength
  rw [length_ctx_m] at hlength
  rw [← ZMod.natCast_zmod_val c.1] at hx
  rw [← ZMod.natCast_zmod_val c.2.1] at hy
  rw [← ZMod.natCast_zmod_val c.2.2] at hz
  exact ⟨c.1.val, c.2.1.val, c.2.2.val, by simp only [ZMod.natCast_zmod_val], hlength, h.val_of_isMont hx,
    h.val_of_isMont hy, h.val_of_isMont hz⟩

theorem BlockOk.rangeOf_val (h : BlockOk s) (hk : (s.slot k).cvalid = true) {ra rb : VIdx}
    (ha : (s.reg ra).len = (s.slot k).clen) (hb : (s.reg rb).len = (s.slot k).clen) :
    (rangeOf s ra rb k).val =
      (decide ((s.reg ra).data.toNat < (s.slot k).m.toNat) && decide ((s.reg rb).data.toNat < (s.slot k).m.toNat)) := by
  rw [rangeOf, rangeT_val (one_le_width h.params) (by simp [ha]) (by simp [hb]), h.val_limbs, h.val_limbs,
    (h.slotLoaded hk).val_m]

theorem rangeOf_trace (s : State) (ra rb : VIdx) (k : CIdx) :
    (rangeOf s ra rb k).trace = [.lcmp (s.reg ra).len, .lcmp (s.reg rb).len] := by
  rw [rangeOf, rangeT_trace, length_limbs, length_limbs]

theorem isBase_iff (b : VIdx) : isBase b = true ↔ b.val ≤ 13 := decide_eq_true_iff

end

/-- A command whose first failing check is one on the tags. -/
theorem exec_of_tag_fails {s : State} {i : Instr} {c : Check} (hc : firstFailing (tagChecks s i) = some c) :
    exec i s = .next (errorState c.code c.work s) := (exec_eq_next i s _).mpr (.inl ⟨c, hc, rfl⟩)

/-- The points that CRVLOAD destroys, in the statement's words. -/
theorem clearWhere_pointOf (s : State) (k : CIdx) : (s.clearWhere (pointOf k)).v = s.v.map fun r =>
    if r.valid = true ∧ (r.form = .px ∨ r.form = .py ∨ r.form = .pz) ∧ r.ctx = k then VReg.cleared else r := by
  rw [clearWhere_v]
  congr 1
  funext r
  simp [pointOf, and_assoc, or_assoc]

end Sys2Proof.Machine
end

section
/-! The statements: the results of the point adder and of the scalar multiplier. -/

namespace Sys2Proof.Machine

/-- Settles O33: the constants are Montgomery forms of the coefficients and of three times the second. -/
theorem curveLoadResult : Obligations.CurveLoadResult := by
  intro s ra rb rc cx hinv hk hva hvb hvc hfa hfb hfc hla hlb n m a b
  have h := hinv.block
  have hload := h.slotLoaded hk
  have htag : ∀ c ∈ tagChecks s (.crvload ra rb rc cx), c.ok = true := by
    simp [tagChecks, slotLoaded, isValid, isStd, hasLen, hk, hva, hvb, hvc, hfa, hfb, hfc, hla, hlb]
  have hrange := h.rangeOf_val hk hla hlb
  constructor
  · rintro ⟨ha, hb⟩
    have hp : Passes s (.crvload ra rb rc cx) :=
      (passes_iff ..).mpr ⟨htag, List.forall_mem_singleton.mpr (hrange.trans (by simpa using ⟨ha, hb⟩))⟩
    have hA := hload.isMont_tomontT h.params ((length_limbs s ra).trans hla)
    have hB := hload.isMont_tomontT h.params ((length_limbs s rb).trans hlb)
    obtain ⟨hA', hB', hB3⟩ := isMont_curveConstT (hload.ctxOk h.params) hA hB
    rw [← Nat.cast_ofNat, ← Nat.cast_mul] at hB3
    have hconst : packed (constOf s ra rb cx).val.1 = BitVec.ofNat 4096 (a * radix s.params n % m) ∧
        packed (constOf s ra rb cx).val.2.1 = BitVec.ofNat 4096 (b * radix s.params n % m) ∧
        packed (constOf s ra rb cx).val.2.2 = BitVec.ofNat 4096 (3 * b * radix s.params n % m) := by
      rw [packed, packed, packed, constOf, hload.val_of_isMont hA', hload.val_of_isMont hB', hload.val_of_isMont hB3,
        h.val_limbs, h.val_limbs]
      exact ⟨rfl, rfl, rfl⟩
    obtain ⟨hca, hcb, hcb3⟩ := hconst
    rw [exec_of_passes hp, finished, work_eq_successTrace h hp, effect, hca, hcb, hcb3, h.packed_limbs,
      ← clearWhere_pointOf]
    rfl
  · intro hout
    have hfails := firstFailing_cons_false (c := ⟨(rangeOf s ra rb cx).val, .eRange, (rangeOf s ra rb cx).trace⟩)
      (hrange.trans (by simpa using fun hlt => hout.resolve_left (by omega))) []
    rw [exec_of_value_fails htag hfails, errorState_of_recoverable (by simp [errClass]), rangeOf_trace, hla, hlb]
    rfl

/-- Settles O34: the curve check compares the Montgomery forms of the two sides of the equation. -/
theorem pointLoadResult : Obligations.PointLoadResult := by
  intro s rd ra rb cx a b hinv hbase hk hcurve hva hvb hfa hfb hla hlb n m x y ha hb
  have h := hinv.block
  have hload := h.slotLoaded hk
  have hslot := h.slotCurve hcurve
  have htag : ∀ c ∈ tagChecks s (.ptload rd ra rb cx), c.ok = true := by
    simp [tagChecks, isBase, curveLoaded, isValid, isStd, hasLen, hbase, hk, hcurve, hva, hvb, hfa, hfb, hla, hlb]
  have hrange := h.rangeOf_val hk hla hlb
  have hX := hload.isMont_tomontT h.params ((length_limbs s ra).trans hla)
  have hY := hload.isMont_tomontT h.params ((length_limbs s rb).trans hlb)
  rw [h.val_limbs] at hX hY
  have hok : (curveOf s ra rb cx).val.ok = decide (y ^ 2 % m = (x ^ 3 + a * x + b) % m) := by
    rw [curveOf, oncurveT_ok (hload.ctxOk h.params) (hslot.isMont_a hload ha) (hslot.isMont_b hload hb) hX hY]
    refine decide_eq_decide.mpr ?_
    rw [← Nat.cast_pow, ← Nat.cast_pow, ← Nat.cast_mul, ← Nat.cast_add, ← Nat.cast_add, ZMod.natCast_eq_natCast_iff',
      hload.val_m]
  have hwork : (rangeOf s ra rb cx).trace ++ (curveOf s ra rb cx).trace = successTrace s (.ptload rd ra rb cx) := by
    rw [rangeOf_trace, curveOf, oncurveT_trace (by simp [hla]) (by simp [hlb]) (by simp) (by simp)]
    simp [successTrace, hla, hlb]
  refine ⟨fun hx hy hon => ?_, fun hx hy hoff => ?_, fun hout => ?_⟩
  · have hp : Passes s (.ptload rd ra rb cx) :=
      (passes_iff ..).mpr ⟨htag, List.forall_mem_cons.mpr
        ⟨hrange.trans (by simpa using ⟨hx, hy⟩), List.forall_mem_singleton.mpr (hok.trans (decide_eq_true hon))⟩⟩
    have hone := hload.isMont_one
    rw [← Nat.cast_one] at hone
    refine exec_writePoint h hp rfl ?_ ⟨hload.val_of_isMont hX, hload.val_of_isMont hY, ?_⟩
    · exact ⟨hX.length_eq.trans (length_ctx_m s cx), hY.length_eq.trans (length_ctx_m s cx), length_ctx_one s cx⟩
    · rw [hload.val_of_isMont hone, Nat.one_mul]
  · have hfails : firstFailing (valueChecks s (.ptload rd ra rb cx)) = some ⟨(curveOf s ra rb cx).val.ok, .eNotOnCurve,
        (rangeOf s ra rb cx).trace ++ (curveOf s ra rb cx).trace⟩ :=
      (firstFailing_cons_true (hrange.trans (by simpa using ⟨hx, hy⟩)) _).trans
        (firstFailing_cons_false (hok.trans (decide_eq_false hoff)) _)
    rw [exec_of_value_fails htag hfails, errorState_of_recoverable (by simp [errClass]), hwork]
    rfl
  · have hfails : firstFailing (valueChecks s (.ptload rd ra rb cx)) = some ⟨(rangeOf s ra rb cx).val, .eRange,
        (rangeOf s ra rb cx).trace⟩ :=
      firstFailing_cons_false (hrange.trans (by simpa using fun hlt => hout.resolve_left (by omega))) _
    rw [exec_of_value_fails htag hfails, errorState_of_recoverable (by simp [errClass]), rangeOf_trace, hla, hlb]
    rfl

/-- Settles O35: the checks leave the constant triple. -/
theorem pointAtInfinityResult : Obligations.PointAtInfinityResult := by
  intro s rd cx hinv hbase hk hcurve
  have h := hinv.block
  have hload := h.slotLoaded hk
  have hp : Passes s (.ptinf rd cx) := passes_of_tags rfl (by simp [tagChecks, isBase, curveLoaded, hbase, hk, hcurve])
  exact exec_writePoint h hp rfl ⟨by simp [infinity], by simp [infinity], by simp [infinity]⟩
    ⟨by simp [infinity, val_limbsOf], hload.val_one, by simp [infinity, val_limbsOf]⟩

/-- Settles O36: PADD on the Montgomery forms of the coordinates, which any canonical result is. -/
theorem pointAdditionResult : Obligations.PointAdditionResult := by
  intro s rd ra rb cx a b x1 y1 z1 x2 y2 z2 hinv hrd hra hrb hk hcurve hva hta hvb htb n m mont ha hb hx1 hy1
    hz1 hx2 hy2 hz2
  have h := hinv.block
  have hload := h.slotLoaded hk
  have hslot := h.slotCurve hcurve
  have hcv : curveLoaded s cx = true := (curveLoaded_iff s cx).mpr ⟨hk, hcurve⟩
  have hp := ((tripleTagged_iff s ra cx).mp hta).isMontPoint h hx1 hy1 hz1
  have hq := ((tripleTagged_iff s rb cx).mp htb).isMontPoint h hx2 hy2 hz2
  have hA := hslot.isMont_a hload ha
  have hB := hslot.isMont_b hload hb
  have hadd : Passes s (.ptadd rd ra rb cx) :=
    passes_of_tags rfl (by simp [tagChecks, isBase, hrd, hra, hrb, hcv, hva, hvb, hta, htb])
  have hdbl : Passes s (.ptdbl rd ra cx) := passes_of_tags rfl (by simp [tagChecks, isBase, hrd, hra, hcv, hva, hta])
  constructor
  · obtain ⟨x3, y3, z3, hsum, hlength, hvals⟩ := hload.exists_coordinates (h.isMontPoint_sumOf hcv hA hB hp hq)
    rw [hload.val_m] at hsum
    exact ⟨x3, y3, z3, hsum, exec_writePoint h hadd rfl hlength hvals⟩
  · obtain ⟨x3, y3, z3, hsum, hlength, hvals⟩ := hload.exists_coordinates (h.isMontPoint_sumOf hcv hA hB hp hp)
    rw [hload.val_m] at hsum
    exact ⟨x3, y3, z3, hsum, exec_writePoint h hdbl rfl hlength hvals⟩

/-- Settles O37: the inverse is the power `m - 2`; for `m = 1`, where that exponent wraps, every value is 0. -/
theorem affineResult : Obligations.AffineResult := by
  intro s rd ra rb cx x y z hinv hra
  have h := hinv.block
  have hbase : isBase ra = true := (isBase_iff ra).mpr hra
  constructor
  · intro hsame
    have hfails : firstFailing (tagChecks s (.ptaff rd ra rb cx)) = some ⟨rd != rb, .eAlias, []⟩ :=
      (firstFailing_cons_true hbase _).trans (firstFailing_cons_false (by simp [hsame]) _)
    rw [exec_of_tag_fails hfails, errorState_of_contract rfl]
  · intro hne hk hcurve hva hta n m mont hz hX hY hZ
    have hload := h.slotLoaded hk
    have hcv : curveLoaded s cx = true := (curveLoaded_iff s cx).mpr ⟨hk, hcurve⟩
    have hp : Passes s (.ptaff rd ra rb cx) := passes_of_tags rfl (by simp [tagChecks, hbase, hne, hcv, hva, hta])
    obtain ⟨hinf, ⟨hxLen, hxLt, hx⟩, hyLen, hyLt, hy⟩ :=
      h.affineOf_val hk (((tripleTagged_iff s ra cx).mp hta).isMontPoint h hX hY hZ)
    have hzero : decide ((z : ZMod (val (s.ctx cx).m)) = 0) = decide (z = 0) := by
      refine decide_eq_decide.mpr ?_
      rw [ZMod.natCast_eq_zero_iff, hload.val_m]
      exact ⟨fun hd => Nat.eq_zero_of_dvd_of_lt hd hz, fun h0 => h0 ▸ dvd_zero _⟩
    rw [← Nat.cast_pow, ← Nat.cast_mul, ZMod.natCast_eq_natCast_iff', Nat.mod_eq_of_lt hxLt, hload.val_m] at hx
    rw [← Nat.cast_pow, ← Nat.cast_mul, ZMod.natCast_eq_natCast_iff', Nat.mod_eq_of_lt hyLt, hload.val_m] at hy
    rw [exec_of_passes hp, finished, work_eq_successTrace h hp, effect, State.write, State.write, mkReg_eq_regOf,
      mkReg_eq_regOf, hxLen, hyLen, hx, hy, hinf, hzero]
    rfl

/-- Settles O38: the ladder follows the formulas step by step from the point at infinity. -/
theorem scalarMultiplicationResult : Obligations.ScalarMultiplicationResult := by
  intro s rd ra rb cx noinf a b x y z hinv hrd hra hk hcurve hva hta hvb hfb hlb n m k mont ha hb hx hy hz
  have h := hinv.block
  have hload := h.slotLoaded hk
  have hslot := h.slotCurve hcurve
  have hcv : curveLoaded s cx = true := (curveLoaded_iff s cx).mpr ⟨hk, hcurve⟩
  have htriple := (tripleTagged_iff s ra cx).mp hta
  have htag : ∀ c ∈ tagChecks s (.scmul rd ra rb cx noinf), c.ok = true := by
    simp [tagChecks, isBase, isValid, isStd, hasLen, hrd, hra, hcv, hva, hta, hvb, hfb, hlb]
  have hless : (cmpT (s.limbs rb) (s.order cx)).val.lt = decide (k < (s.slot cx).ord.toNat) := by
    rw [cmpT_val, cmpN_eq (one_le_width h.params) (by simp [hlb]), h.val_limbs, hslot.val_order]
  have hzero : (isZeroT (s.limbs (ra + 2))).val = decide ((s.reg (ra + 2)).data = 0) := by
    rw [isZeroT_val, isZeroN_eq (one_le_width h.params), h.val_limbs]
    exact decide_eq_decide.mpr (toNat_eq_zero_iff _)
  refine ⟨fun hlt hfinite => ?_, fun hle => ?_, fun hlt hnoinf hinfinite => ?_⟩
  · have hallowed : (!(noinf && (isZeroT (s.limbs (ra + 2))).val)) = true := by
      rwa [hzero, Bool.not_eq_true', ← Bool.not_eq_true, Bool.and_eq_true, decide_eq_true_iff]
    have hp : Passes s (.scmul rd ra rb cx noinf) :=
      (passes_iff ..).mpr ⟨htag, List.forall_mem_cons.mpr ⟨hless.trans (decide_eq_true hlt),
        List.forall_mem_singleton.mpr hallowed⟩⟩
    have hmult := h.isMontPoint_multipleOf hcv (hslot.isMont_a hload ha) (hslot.isMont_b hload hb)
      (htriple.isMontPoint h hx hy hz) rb
    rw [h.val_limbs] at hmult
    obtain ⟨x3, y3, z3, hsum, hlength, hvals⟩ := hload.exists_coordinates hmult
    rw [hload.val_m] at hsum
    exact ⟨x3, y3, z3, hsum, exec_writePoint h hp rfl hlength hvals⟩
  · have hfails : firstFailing (valueChecks s (.scmul rd ra rb cx noinf)) =
        some ⟨(cmpT (s.limbs rb) (s.order cx)).val.lt, .eRange, (cmpT (s.limbs rb) (s.order cx)).trace⟩ :=
      firstFailing_cons_false (hless.trans (decide_eq_false (by omega))) _
    rw [exec_of_value_fails htag hfails, errorState_of_recoverable (by simp [errClass]), cmpT_trace, length_limbs, hlb]
    rfl
  · have hfails : firstFailing (valueChecks s (.scmul rd ra rb cx noinf)) =
        some ⟨!(noinf && (isZeroT (s.limbs (ra + 2))).val), .ePointInf,
          (cmpT (s.limbs rb) (s.order cx)).trace ++ (isZeroT (s.limbs (ra + 2))).trace⟩ :=
      (firstFailing_cons_true (hless.trans (decide_eq_true hlt)) _).trans
        (firstFailing_cons_false (by rw [hzero, hnoinf, decide_eq_true hinfinite, Bool.true_and, Bool.not_true]) _)
    rw [exec_of_value_fails htag hfails, errorState_of_recoverable (by simp [errClass]), cmpT_trace, isZeroT_trace,
      length_limbs, length_limbs, hlb, h.len_z htriple]
    rfl

end Sys2Proof.Machine
end

section
/-! SUPPORT. The negated inverse over the naturals, the context that MKCTX makes as one whose multiplier works, and
FROMMONT's result as a number (42_montgomery_multiplier.md R152, R155, R156). -/

namespace Sys2Proof.Machine

/-- A product one short of a multiple of `2^W`, in the ring of limbs. -/
theorem mul_add_one_eq_zero_iff {w : Nat} (x y : BitVec w) :
    x * y + 1 = 0 ↔ (x.toNat * y.toNat + 1) % 2 ^ w = 0 := by
  simp [← BitVec.toNat_inj]

theorem ctxOk_mkctx {w : Nat} (hw : 1 ≤ w) {m : Limbs w} (hodd : val m % 2 = 1) : CtxOk (mkctx m).val :=
  n0Ok_n0inv hw hodd

/-- TOMONT in the context of an odd modulus. -/
theorem isMont_tomontT_mkctx {w : Nat} (hw : 1 ≤ w) {m a : Limbs w} (hodd : val m % 2 = 1)
    (ha : a.length = m.length) : IsMont m (tomontT (mkctx m).val a).val (val a) := by
  obtain ⟨-, -, hrrLen, hrrVal⟩ := mkctx_spec hw hodd
  exact isMont_tomontT (ctxOk_mkctx hw hodd) hrrLen hrrVal ha

/-- FROMMONT gives the canonical value of the number a Montgomery form stands for. -/
theorem val_frommontT {w : Nat} {k : Ctx w} (h : CtxOk k) {a : Limbs w} {x : Nat} (ha : IsMont k.m a x) :
    val (frommontT k a).val = x % val k.m := by
  obtain ⟨-, hlt, hcast⟩ := frommontT_spec h ha
  rwa [ZMod.natCast_eq_natCast_iff', Nat.mod_eq_of_lt hlt] at hcast

end Sys2Proof.Machine
end

section
/-! The statements: the negated inverse, the constants of a context, the round trip (42_montgomery_multiplier.md R152,
R155, R162). -/

namespace Sys2Proof.Machine

/-- Settles O14: two limbs `n` and `x` with `m0 * n = m0 * x = -1` are equal, by `x * (m0 * n) = n * (m0 * x)`. -/
theorem negatedInverseLaw : Obligations.NegatedInverseLaw := by
  intro w m0 _ hodd
  have hinverse := mul_n0inv_add_one hodd
  refine ⟨(mul_add_one_eq_zero_iff ..).mp hinverse, fun x hx => ?_⟩
  have hx' := (mul_add_one_eq_zero_iff ..).mpr hx
  linear_combination x * hinverse - n0inv m0 * hx'

/-- Settles O16: `mkctx_spec` gives the constants, `mkctx_trace` the trace. -/
theorem contextConstants : Obligations.ContextConstants := by
  intro w m hw hodd k
  obtain ⟨⟨hm, hn0⟩, ⟨honeLen, honeVal⟩, hrrLen, hrrVal⟩ := mkctx_spec hw hodd
  exact ⟨hm, honeLen, hrrLen, honeVal, hrrVal, hn0, mkctx_trace m⟩

/-- Settles O17: TOMONT gives Montgomery forms, the product of two is that of the product, and FROMMONT gives back the
canonical value a form stands for. -/
theorem montgomeryRoundTrip : Obligations.MontgomeryRoundTrip := by
  intro w m a b hw hodd ha hb ham _ k
  have hk : CtxOk k := ctxOk_mkctx hw hodd
  have hmontA : IsMont k.m (tomontT k a).val (val a) := isMont_tomontT_mkctx hw hodd ha
  have hmontB : IsMont k.m (tomontT k b).val (val b) := isMont_tomontT_mkctx hw hodd hb
  constructor
  · obtain ⟨hlen, -⟩ := frommontT_spec hk hmontA
    exact limbs_ext (hlen.trans ha.symm) ((val_frommontT hk hmontA).trans (Nat.mod_eq_of_lt ham))
  · have hproduct := isMont_mmT hk hmontA hmontB
    rw [← Nat.cast_mul] at hproduct
    exact val_frommontT hk hproduct

end Sys2Proof.Machine
end
